-- ==== Sys2Proof/Word.lean ====
section
/-! DEFINITION. The word types of the model and their plainest arithmetic: bytes, 32-bit and 64-bit words, and the sign extension used by addresses and immediates. -/

namespace Sys2Proof

/-- One byte, the smallest addressable unit of every memory of the spec (R6). -/
abbrev Byte := BitVec 8
/-- A 32-bit word: instruction words, lanes, narrow registers (R9, R69). -/
abbrev W32 := BitVec 32
/-- A 64-bit word: scalar registers, wide registers, packet words (R9, R62). -/
abbrev W64 := BitVec 64
/-- A vector register of 1,024 bits (R62). -/
abbrev VReg := BitVec 1024

end Sys2Proof
end

