-- ==== Sys2Proof/Machine/Table.lean ====
section
/-! DEFINITION. Sparse tables in one canonical form: the representation of every memory and of every array of like parts. Keys strictly rise and no listed value equals what an unlisted key reads as. -/

namespace Sys2Proof.Machine

/-- A sparse table: listed keys with their values; an unlisted key reads as the table's default. -/
abbrev Tab (α : Type) := List (Nat × α)

/-- The value at key `i`, the default `d` where nothing is listed. -/
def tabGet {α : Type} (d : α) : Tab α → Nat → α
  | [], _ => d
  | (k, v) :: t, i => if i = k then v else tabGet d t i

/-- Removal of key `i`. -/
def tabDel {α : Type} : Tab α → Nat → Tab α
  | [], _ => []
  | (k, v) :: t, i => if i = k then tabDel t i else (k, v) :: tabDel t i

/-- Insertion of a value at key `i`, keeping keys rising. -/
def tabIns {α : Type} : Tab α → Nat → α → Tab α
  | [], i, x => [(i, x)]
  | (k, v) :: t, i, x =>
    if i < k then (i, x) :: (k, v) :: t
    else if i = k then (i, x) :: t
    else (k, v) :: tabIns t i x

/-- A write of `x` at key `i`: writing the default removes the entry, so equal contents are equal data. -/
def tabSet {α : Type} [DecidableEq α] (d : α) (t : Tab α) (i : Nat) (x : α) : Tab α :=
  if x = d then tabDel t i else tabIns t i x

/-- Every listed key is above `lo`, keys rise, and no value is the default. -/
def tabWfFrom {α : Type} [DecidableEq α] (d : α) : Option Nat → Tab α → Bool
  | _, [] => true
  | lo, (k, v) :: t =>
    (match lo with | none => true | some l => decide (l < k)) && decide (v ≠ d) && tabWfFrom d (some k) t

/-- The canonical form of a table whose unlisted keys read as `d`. -/
def tabWf {α : Type} [DecidableEq α] (d : α) (t : Tab α) : Bool := tabWfFrom d none t

/-- Change of one entry by a function. -/
def tabMod {α : Type} [DecidableEq α] (d : α) (t : Tab α) (i : Nat) (f : α → α) : Tab α :=
  tabSet d t i (f (tabGet d t i))

/-- Every listed entry changed by a function of its key and value. -/
def tabMapV {α : Type} (f : Nat → α → α) : Tab α → Tab α
  | [] => []
  | (k, v) :: t => (k, f k v) :: tabMapV f t

/-- The entries of a list with rising keys that are not the default. -/
def tabOf {α : Type} [DecidableEq α] (d : α) (l : List (Nat × α)) : Tab α := l.filter (fun x => x.2 != d)

/-- The listed keys whose value satisfies `p`. -/
def tabKeys {α : Type} (p : Nat → α → Bool) : Tab α → List Nat
  | [] => []
  | (k, v) :: t => if p k v then k :: tabKeys p t else tabKeys p t

/-- The `n` bytes from address `a` upward, least address first (R6). -/
def tabBytes (t : Tab Byte) (a : Nat) : Nat → List Byte
  | 0 => []
  | n + 1 => tabGet 0#8 t a :: tabBytes t (a + 1) n

/-- A write of consecutive bytes from address `a` upward. -/
def tabPut (t : Tab Byte) (a : Nat) : List Byte → Tab Byte
  | [] => t
  | b :: bs => tabPut (tabSet 0#8 t a b) (a + 1) bs

/-- The value of bytes read little-endian (R6). -/
def bytesNat : List Byte → Nat
  | [] => 0
  | b :: bs => b.toNat + 256 * bytesNat bs

/-- The `n` low bytes of a value, least significant first (R6). -/
def natBytes : Nat → Nat → List Byte
  | 0, _ => []
  | n + 1, v => BitVec.ofNat 8 v :: natBytes n (v / 256)

/-- Bits [hi:lo] of a number (the convention of 00_scope). -/
def bits (v hi lo : Nat) : Nat := (v / 2 ^ lo) % 2 ^ (hi + 1 - lo)

/-- Bit `i` of a number. -/
def bitOf (v i : Nat) : Bool := (v / 2 ^ i) % 2 = 1

/-- A Bool as the bit it stands for. -/
def b2n (b : Bool) : Nat := if b then 1 else 0

/-- Saturating addition at the given bound. -/
def satAdd (bound a b : Nat) : Nat := if a + b > bound then bound else a + b

/-- The low `w` bits of an integer, as a number. -/
def wrapNat (w : Nat) (i : Int) : Nat := (i % (2 ^ w : Nat)).toNat

/-- Sign extension of the `w` low bits of a number to an integer. -/
def signed (w v : Nat) : Int := if v % 2 ^ w < 2 ^ (w - 1) then (v % 2 ^ w : Nat) else (v % 2 ^ w : Nat) - (2 ^ w : Nat)

/-- The number with the given bits listed by position. -/
def maskOf (l : List Nat) : Nat := l.foldl (fun m i => if bitOf m i then m else m + 2 ^ i) 0

/-- The positions of the set bits below `n`. -/
def bitList (n v : Nat) : List Nat := (List.range n).filter (fun i => bitOf v i)

end Sys2Proof.Machine
end

