-- ==== Sys2Proof/Machine/Types.lean ====
section
/-! DEFINITION. The data that commands and packets carry: masters, responses, flits, packets, messages, verdicts, map changes, journal entries and waits. -/

namespace Sys2Proof

/-- The masters that start accesses (R346, R123, R409). -/
inductive Master where
  /-- a core, by its global index (R30) -/
  | core (c : Nat)
  /-- dispatch engine DE(d mod 4); at work for a step of a stored graph, the graph's handle is d / 4, otherwise that is 0 (R204) -/
  | dispatch (d : Nat)
  /-- copy engine CEi -/
  | copy (i : Nat)
  /-- collective engine XEi -/
  | coll (i : Nat)
  /-- the stream sequencer -/
  | ss
  /-- the maintenance engine -/
  | me
  /-- control firmware on CPd -/
  | cp (d : Nat)
  /-- the management processor -/
  | mp
  /-- Cartouche -/
  | sp
  /-- a master on another module, by its module ID -/
  | remote (m : Nat)
  /-- a host or peer device, by its requester ID; `t` is the T bit of its request (R346) -/
  | host (rid : Nat) (t : Bool)
  deriving DecidableEq, Repr

/-- Response codes of requests on VC1 and VC3 (R109). -/
inductive Resp where
  | ok | collide | fault | poison
  deriving DecidableEq, Repr

/-- The reset-like outcome of one link training (R297): what the peer reported and where training stopped. -/
structure TrainResult where
  /-- reason with which the link is refused, 0 when it comes up (R320 REASON) -/
  reason : Nat
  /-- highest revision the peer supports (R295) -/
  peerRev : Nat
  /-- physical lanes marked bad by equalisation, bit n for lane n (R297 step 4) -/
  badLanes : BitVec 17
  /-- the peer's link number -/
  peerLink : Nat
  /-- the peer's module ID, none while it is not valid -/
  peerId : Option Nat
  /-- the peer reports the Open lifecycle state (R304) -/
  peerOpen : Bool
  /-- the peer's certificate chain verified (R304) -/
  identityOk : Bool
  /-- the sixteen round trips of step 7, in ns -/
  rtts : List Nat
  deriving DecidableEq, Repr

/-- The link word of a flit as it arrives (R299), with what the receiver's decoder and cipher found. -/
structure Flit where
  ft : Nat
  vc : Nat
  keysel : Bool
  /-- FIRSTHDR: slot of the first packet header that begins in the flit, 15 for none -/
  firstHdr : Nat
  lseq : Nat
  ack : Nat
  nak : Bool
  /-- credits returned for VC0–VC3 -/
  cr : List Nat
  /-- the 240 bytes of packet space, deciphered -/
  payload : List Byte
  deriving DecidableEq, Repr

/-- A fabric packet: the header of R308 and its payload. -/
structure Packet where
  pver : Nat
  kind : Nat
  maddr : Bool
  ret : Nat
  dst : Nat
  src : Nat
  vdid : Nat
  ttl : Nat
  edition : Nat
  dtask : Nat
  cseq : Nat
  operand : W64
  payload : List Byte
  deriving DecidableEq, Repr

/-- A message between tasks (R97, R98, R100). -/
structure Msg where
  src : Nat
  dst : Nat
  chan : Nat
  cseq : Nat
  payload : List Byte
  deriving DecidableEq, Repr

/-- Where a request of another module comes from, and the partition of this module that it is for. -/
structure Origin where
  modId : Nat
  n : Nat
  deriving DecidableEq, Repr

/-- A bulk read (R308): the address, the length and the requester's tag. -/
structure ReadAsk where
  va : Nat
  len : Nat
  tag : Nat
  deriving DecidableEq, Repr

/-- A graph instance: the graph's handle and its version (R244). -/
structure GraphVer where
  graph : Nat
  ver : Nat
  deriving DecidableEq, Repr

/-- One stream's part of a verdict message (R205). -/
structure VerdictItem where
  stream : Nat
  position : Nat
  k : Nat
  d : Nat
  specGen : Nat
  deriving DecidableEq, Repr

/-- One partition of a virtual device as its map names it (R90, R257). -/
structure MapEntry where
  rank : Nat
  modId : Nat
  /-- compute slices, memory slices and link slices -/
  compute : Nat
  memory : Nat
  links : Nat
  present : Bool
  /-- its journal partner, and whether it is the standby front -/
  partner : Nat
  partnerValid : Bool
  standby : Bool
  deriving DecidableEq, Repr

/-- A change of a virtual device's map that a new edition carries (R265, R267). Slices are numbered as ATL_SLICE numbers them (R291). -/
inductive MapChange where
  /-- slices and granules join the partition; granule counts per compute die, cache then scratchpad -/
  | grow (slices : List Nat) (granules : List Nat)
  /-- slices are marked leaving (R262 step 1) -/
  | leaving (slices : List Nat)
  /-- slices are removed (R262 step 2) -/
  | remove (slices : List Nat)
  /-- a slice is taken for maintenance (R264) -/
  | take (slice : Nat)
  /-- a slice with a return mark comes back (R264) -/
  | back (slice : Nat)
  /-- guarantees and partner of a partition (R263) -/
  | guar (mem : List Nat) (link : Nat) (partner : Nat) (valid : Bool)
  /-- the front role moves to the partition of the given rank -/
  | front (rank : Nat)
  /-- a rank's slices are marked absent after a fault (R386 step 3) -/
  | absent (rank : Nat)
  /-- a failed rank's module is back (R386 step 8) -/
  | present (rank : Nat)
  /-- the owner of request state changes (R270) -/
  | owner (stream : Nat) (modId : Nat)
  /-- the whole map as the edition has it -/
  | map (l : List MapEntry)
  /-- the slices that the partition on a module now holds, counted (R264, R387) -/
  | counts (modId compute memory links : Nat)
  /-- a change for one module only -/
  | only (modId : Nat) (c : MapChange)
  | seq (a b : MapChange)
  /-- a change without effect on the map's own data -/
  | other
  deriving DecidableEq, Repr

/-- A journal entry header (R277) with its body. -/
structure JournalItem where
  typ : Nat
  vdid : Nat
  jseq : Nat
  edition : Nat
  stream : Nat
  owner : Nat
  reqTag : W64
  seq : Nat
  durable : Bool
  body : List W64
  deriving DecidableEq, Repr

/-- A wait reported to the arbiter's sweep (R379, R380). -/
structure WaitEdge where
  kind : Nat
  waiter : Nat
  waitsFor : List Nat
  /-- instance number: the Meridian time at which the wait began -/
  inst : Nat
  deriving DecidableEq, Repr

end Sys2Proof
end

