-- ==== Sys2Proof/Machine/CoreState.lean ====
section
/-! DEFINITION. The state of one core: register files, local and instruction memory, matrix engine, message unit (R62–R88, R97–R107). -/

namespace Sys2Proof.Machine

/-- What a core is doing with its task (R82–R87). -/
inductive CoreMode where
  /-- no task bound -/
  | idle
  /-- a task runs or is blocked -/
  | running
  /-- stopped for a pre-emption; the matrix queue drains (R85 step 3) -/
  | draining
  /-- the save record is being written (R85 step 4) -/
  | saving
  deriving DecidableEq, Repr

/-- Why a core's next instruction does not complete yet. -/
inductive Blocked where
  | none
  /-- RECV without a matching message (R100): rd, source, channel, ANY, buffer, capacity -/
  | recv (rd : Nat) (src chan : Nat) (any : Bool) (buf cap : Nat) (since : Nat)
  /-- WAITMSG without a ready channel (R101): rd, mask, timeout in ns (0 without limit) -/
  | waitmsg (rd mask timeout : Nat) (since : Nat)
  /-- BAR whose phase is not complete (R107): barrier, count -/
  | bar (b count : Nat) (since : Nat)
  /-- FENCEOP whose classes have not completed (R81) -/
  | fence (m s g x : Bool)
  /-- END waiting for the matrix queue and the messages (R83, R105) -/
  | ending
  deriving DecidableEq, Repr

/-- One loaded part of an operand slot (R73, R74): format, scaling and the bytes read. -/
structure MxPart where
  valid : Bool := false
  fmt : Nat := 0
  mx : Bool := false
  /-- the per-tensor scale recorded with an LG4 part (R43, R74) -/
  t : W32 := 0x3F800000#32
  elems : List Byte := []
  scales : List Byte := []
  deriving DecidableEq, Repr

/-- The descriptor of one accumulator tile, as the engine keeps it (R75, R76, R86). `count` holds chunks by SUB position; `pend` lists the
pending (SUB, level) pairs. -/
structure TileDesc where
  opn : Bool := false
  /-- coverage class of R73: 0 sixteenth, 1 quarter, 2 full -/
  cov : Nat := 0
  s : Nat := 0
  m : Nat := 0
  base : Nat := 0
  t : Option W32 := none
  count : Tab Nat := []
  pend : List (Nat × Nat) := []
  deriving DecidableEq, Repr

/-- A queued MLOAD with the register values it read at issue: sa, and sb[31:0]. `olds` keeps, by 64-byte beat, what local memory held before a
core store or delivery wrote it while the instruction was queued (R68, R74). -/
structure LoadOp where
  slot : Nat
  part : Nat
  fmt : Nat
  mx : Bool
  operand : W64
  t : W32
  olds : Tab (List Byte) := []
  pc : Int
  word : W32
  deriving DecidableEq, Repr

/-- A queued MMAC (R75). -/
structure MacOp where
  tile : Nat
  slot : Nat
  opens : Bool
  operand : W64
  sub : Nat
  pc : Int
  word : W32
  deriving DecidableEq, Repr

/-- A queued MSTORE (R78). -/
structure StoreOp where
  tile : Nat
  fmt : Nat
  rtz : Bool
  sat : Bool
  operand : W64
  pc : Int
  word : W32
  deriving DecidableEq, Repr

/-- A queued MSCALE (R78); no T with s0: the value recorded with the reduction's LG4 parts is used. -/
structure ScaleOp where
  tile : Nat
  t : Option W32
  pc : Int
  word : W32
  deriving DecidableEq, Repr

/-- A queued matrix instruction with the register values it read at issue (R61). -/
inductive MatOp where
  | load (o : LoadOp)
  | mac (o : MacOp)
  | store (o : StoreOp)
  | scale (o : ScaleOp)
  deriving DecidableEq, Repr

/-- A SEND not yet accepted (R98, R102), by its number within the core; one to a task of another module has been sent there and waits for the
response (R109). -/
structure OutSend where
  sid : Nat
  since : Nat
  msg : Msg
  sent : Bool := false
  deriving DecidableEq, Repr

/-- A PUT or GET not yet complete (R102); `parked` holds a response that arrived during a pre-emption (R106). -/
structure Xfer where
  xid : Nat
  write : Bool
  va : Nat
  lbase : Nat
  len : Nat
  data : List Byte
  /-- core that issued it (R106) -/
  origin : Nat := 0
  /-- the stored graph whose step the issuing task belongs to, 0 for none (R204) -/
  graph : Nat := 0
  /-- has taken effect: what it does at its memory is done (R103) -/
  performed : Bool := false
  /-- a request for it has left this module, and the response comes from there; of a GET, the bytes that this module holds itself, by place in the
  span (R102) -/
  sent : Bool := false
  got : List (Option Byte) := []
  /-- the response its target on this module has given and that has not yet arrived (R109) -/
  answer : Option Resp := none
  /-- words (address divided by 64) that met COLLIDE and are still to be written (R109, R121) -/
  todo : List Nat := []
  /-- COLLIDE responses met in a row (R122) -/
  collides : Nat := 0
  /-- NoC cycles of the current backoff, 0 when not backing off (R109) -/
  backoff : Nat := 0
  parked : Option (List Byte) := none
  deriving DecidableEq, Repr

/-- One core (R61–R88) (DESIGN CHOICE, log 5). -/
structure Core where
  mode : CoreMode := .idle
  /-- local number of the partition whose task runs -/
  part : Nat := 0
  /-- the LAUNCH whose grid the task belongs to -/
  launch : Nat := 0
  /-- CTASK: the task's linear logical index (R64) -/
  task : Nat := 0
  pc : Int := 0
  /-- the program image in instruction memory (R67), and what it was loaded from: the context and the image's address and length, by which the
  dispatch engine knows it as the same image (R82) -/
  image : List W32 := []
  imageOf : Option (Nat × Nat × Nat) := none
  sreg : Tab W64 := []
  vreg : Tab VReg := []
  preg : Tab W64 := []
  nv : Bool := false
  ovf : Bool := false
  unf : Bool := false
  /-- CLIVE.EXTENT (R64) -/
  clive : Nat := 0
  lmem : Tab Byte := []
  /-- poisoned 64-byte words of local memory (R126) -/
  lpoison : Tab Bool := []
  queue : List MatOp := []
  /-- operand parts by 2 × slot + part, as loaded -/
  parts : Tab MxPart := []
  /-- element (i, j) of tile x at key 2048 x + 64 i + j -/
  tiles : Tab W32 := []
  /-- tile descriptors, as the engine has completed them -/
  descs : Tab TileDesc := []
  inbox : List Msg := []
  /-- direct arrivals behind a move (R96), and whether the forward-complete marker is still awaited -/
  direct : List Msg := []
  awaitFwd : Bool := false
  sends : List OutSend := []
  xfers : List Xfer := []
  nextId : Nat := 0
  /-- next sequence number by destination index × 16 + channel (R308) -/
  cseq : Tab Nat := []
  blocked : Blocked := .none
  preemptReq : Bool := false
  /-- 0 for a request, 1 for a YIELD (R86 byte 28) -/
  cause : Nat := 0
  deriving DecidableEq, Repr

/-- A save record with its parking area (R86, R106): the dispatch engine's note of it, with what the message unit carries; the record's own bytes lie
in the context save area at `place`. A record without a place, for want of a save area, is held here alone (DESIGN CHOICE, log 92). -/
structure SaveRec where
  version : Nat
  place : Option Nat := none
  launch : Nat
  task : Nat
  cause : Nat
  extent : Nat
  /-- the core it was saved from -/
  oldCore : Nat
  core : Core
  deriving DecidableEq, Repr

end Sys2Proof.Machine
end

