-- ==== Sys2Proof/Machine/PartState.lean ====
section
/-! DEFINITION. The state of one partition of a virtual device: its place in the Atlas, context, queues, fences, ranges, graphs, streams, rings, collectives, kernels, journal, keys and port binding. -/

namespace Sys2Proof.Machine

/-- Context states and their codes (R241). -/
inductive CtxState where
  | none | active | lost | recovering | frozen | destroying
  deriving DecidableEq, Repr

/-- Progress of a fetched command (R220). -/
inductive CmdPhase where
  /-- fetched, not started -/
  | fetched
  /-- started, effect not complete -/
  | started
  /-- complete, completion record not yet written -/
  | done
  deriving DecidableEq, Repr

/-- A fetched command of a queue: its packet words and its progress (R228, R231). -/
structure Cmd where
  /-- the queue's expected SEQ that the fetch consumed: the command's number in its queue -/
  seq : Nat
  /-- the packet's own SEQ, which its completion record carries -/
  pseq : Nat
  opc : Nat
  ctx : Nat
  /-- FLAGS of R228: bit 0 WAIT, 1 SIGNAL, 2 SERIAL, 3 IRQ, 4 NOCOMP, 5 DURABLE -/
  flags : Nat
  fwait : Nat
  fsig : Nat
  waitVal : Nat
  sigVal : Nat
  /-- the packet's 64-bit words from word 0 -/
  words : List W64
  phase : CmdPhase := .fetched
  /-- its engine has started it, and its timer runs but while a WAIT waits (R227) -/
  begun : Bool := false
  status : Nat := 0
  result : Nat := 0
  detail : Nat := 0
  /-- Meridian time of the start, for the timer of R227 -/
  start : Nat := 0
  /-- bytes done of a copy or fill, elements done of a convert, served in segments (R248); 1 once a LAUNCH or GRAPH_LAUNCH has begun its work -/
  moved : Nat := 0
  /-- nodes completed and their statuses, of a GRAPH_LAUNCH (R243); nodes started and not completed, with the bytes or elements that a copy
  engine has done of them -/
  nodes : List (Nat × Nat) := []
  running : List (Nat × Nat) := []
  /-- the module whose stream sequencer has been sent the command (R218) -/
  sentTo : Option Nat := none
  /-- graph version run or pinned by a GRAPH_LAUNCH -/
  gver : Nat := 0
  deriving DecidableEq, Repr

/-- One queue (R221–R227, R246). -/
structure Queue where
  created : Bool := false
  destroying : Bool := false
  sqBase : Nat := 0
  cqBase : Nat := 0
  pktver : Nat := 0
  sqLog2 : Nat := 0
  cqLog2 : Nat := 0
  weight : Nat := 0
  timeout : Nat := 0
  vector : Nat := 0
  pv : Bool := false
  pasid : Nat := 0
  sqTail : Nat := 0
  cqHead : Nat := 0
  /-- units fetched, modulo 2^32 -/
  fetched : Nat := 0
  /-- SQ_TAIL at which the next packet was found not whole (R221) -/
  partialAt : Option Nat := none
  /-- units below SQ_TAIL when the context came back from a recovery, whose packets are not run (R242; DESIGN CHOICE, log 156) -/
  stale : Nat := 0
  expSeq : Nat := 0
  /-- completion records written, modulo 2^32 -/
  written : Nat := 0
  cmds : List Cmd := []
  /-- commands its engine has started in the round under way (R20, R219) -/
  starts : Nat := 0
  /-- engines that have not acknowledged an abort (R246 step 3): an engine's index of R373, 16 + d for CPd, 64 + the module ID for
  engines of another module -/
  unacked : List Nat := []
  deriving DecidableEq, Repr

/-- A range entry (R157) in use. BASE and LENGTH are in 4 KiB pages. -/
structure Range where
  kind : Nat
  r : Bool
  w : Bool
  shared : Bool
  pool : Bool
  base : Nat
  len : Nat
  modId : Nat
  /-- stripe count n -/
  n : Nat
  unit : Nat
  offset : Nat
  backing : Nat
  backAddr : Nat
  /-- target slots: type (0 channel, 1 granule), MOVING, index -/
  targets : List (Nat × Bool × Nat)
  hostBase : Nat
  pv : Bool
  pasid : Nat
  residence : Nat
  deriving DecidableEq, Repr

/-- A range command under way on the partition that runs it, which is the front's (R162, R181): its function, queue and SEQ; its stage: 0 the module that
places the range is asked, 1 the copies are written or made invalid, 2 the extent is freed; the modules whose answer is awaited; the entry. -/
structure RangeOp where
  f : Nat
  q : Nat
  seq : Nat
  /-- 0 a range mapped, 1 one withdrawn, 2 a slot rewritten -/
  kind : Nat
  stage : Nat
  waits : List Nat
  range : Range
  scrub : Bool := false
  deriving DecidableEq, Repr

/-- A range that has no room on this module and leaves for another one of the virtual device (R178, R180): its BASE, the members still to be asked for
room, the one asked (none when no member has room), and the entry as that one has placed it; whether it is being copied there. -/
structure Away where
  base : Nat
  left : List Nat
  to_ : Option Nat
  given : Option Range := none
  copying : Bool := false
  deriving DecidableEq, Repr

/-- A range that comes from another module (R178): that module, the entry as it is placed here, and how many of its pages have not come yet. -/
structure Coming where
  src : Nat
  range : Range
  left : Nat
  deriving DecidableEq, Repr

/-- One entry of a residence table (R170). -/
structure Residence where
  dev : Bool := false
  migrating : Bool := false
  phys : Nat := 0
  deriving DecidableEq, Repr

/-- A request or held reply at an allocator port (R175). -/
structure PortReq where
  status : Nat
  order : Nat
  addr : Nat
  deriving DecidableEq, Repr

/-- An allocator pool: orders of the blocks handed out, by their device virtual addresses, and the port's held replies by task (R174–R176). -/
structure Pool where
  blocks : Tab Nat := []
  replies : List (Nat × PortReq) := []
  deriving DecidableEq, Repr

/-- A generation block (R193, R244). -/
structure GenBlock where
  streamsMax : Nat
  tokensMax : Nat
  prefillChunk : Nat
  pageOrder : Nat
  tpp : Nat
  pools : List Nat
  domains : List Nat
  handles : List Nat
  stepsInflight : Nat
  draftLimit : Nat
  /-- AGE in µs -/
  age : Nat
  /-- SPILL range BASE, 0 for none -/
  spill : Nat
  idLimit : Nat
  deriving DecidableEq, Repr

/-- One version of a stored graph: its node images (bytes 32–127 as words), opcodes and predecessors (R243, R245). -/
structure GVersion where
  ver : Nat
  opcs : List Nat
  preds : List (List Nat)
  params : List (List Byte)
  gen : Option GenBlock
  /-- the generation block's bytes, which patches edit (R245) -/
  genBytes : List Byte
  deriving DecidableEq, Repr

/-- A stored graph: its versions, newest last (R194, R245). -/
structure Graph where
  versions : List GVersion := []
  deriving DecidableEq, Repr

/-- Stream slot states and codes (R191). -/
inductive StreamState where
  | free | prefill | ready | scheduled | waitKv | waitOutput | paused | spilled | done | faulted
  deriving DecidableEq, Repr

/-- A stream slot (R189) and the sequencer's own bookkeeping for its stream. -/
structure Stream where
  state : StreamState := .free
  specGen : Nat := 0
  draftMax : Nat := 0
  prio : Nat := 0
  keep : Bool := false
  ring : Nat := 0
  nextSeq : Nat := 0
  deliveredSeq : Nat := 0
  graph : Nat := 0
  position : Nat := 0
  limit : Nat := 0
  lastToken : Nat := 0
  gver : Nat := 0
  kvList : Nat := 0
  seed : W64 := 0
  temp : Nat := 0
  topP : Nat := 0
  topK : Nat := 0
  stop0 : Nat := 0
  stop1 : Nat := 0
  reqTag : W64 := 0
  prompt : Nat := 0
  promptLen : Nat := 0
  prefilled : Nat := 0
  lastStep : Nat := 0
  endStatus : Nat := 0
  spill : Nat := 0
  /-- KV page numbers, in list order (R201) -/
  pages : List Nat := []
  /-- drafts supplied by the verdict of the previous step (R195) -/
  ndraft : Nat := 0
  drafts : List Nat := []
  /-- KV pages in the spill image, what they hold, and the 64-byte pieces of them that were poisoned (R126, R202) -/
  spilled : Nat := 0
  image : List Byte := []
  imageBad : List Nat := []
  /-- a pause or cancel that takes effect at the verdict (R192, R209, R214) -/
  pausing : Bool := false
  cancelling : Bool := false
  /-- the slot is in the stream cache (R190) -/
  cached : Bool := false
  /-- NEXT_SEQ at which a journalled PAUSE or CANCEL applies during a replay, and whether it is a CANCEL (R281 step 4) -/
  replayStop : Option (Nat × Bool) := none
  /-- APPEND entries that a replay has still to apply, oldest first (R281) -/
  again : List JournalItem := []
  deriving DecidableEq, Repr

/-- The producer's bookkeeping of a stream's replay (R281, R282): D, the journal's SEQ and DIGEST, and the records read back. -/
structure Replay where
  d : Nat
  jseq : Nat
  jdigest : BitVec 64
  readBack : List (Nat × List Byte)
  deriving DecidableEq, Repr

/-- A stream's place in a step (R195, R197). -/
structure StepEntry where
  stream : Nat
  d : Nat
  need : Nat
  recs : Nat
  decode : Bool
  specGen : Nat
  position : Nat
  /-- the stream's LAST_STEP before it was selected -/
  before : Nat := 0
  deriving DecidableEq, Repr

/-- One entry of a verdict table as read (R198). -/
structure Verdict where
  k : Nat
  count : Nat
  ndraft : Nat
  /-- token IDs with their log-probabilities -/
  tokens : List (Nat × Nat)
  drafts : List Nat
  deriving DecidableEq, Repr

/-- A running step (R195–R206). -/
structure Step where
  graph : Nat
  ver : Nat
  /-- addresses of its descriptor and of its verdict table (R197) -/
  descriptor : Nat := 0
  table : Nat := 0
  entries : List StepEntry
  /-- nodes of the graph version completed with their statuses, and nodes running as in a GRAPH_LAUNCH -/
  nodes : List (Nat × Nat) := []
  running : List (Nat × Nat) := []
  /-- the verdict message has been sent (R205) -/
  sent : Bool := false
  /-- the step's working areas have been released on this module -/
  applied : Bool := false
  /-- modules of the span whose acknowledgement is awaited -/
  acksLeft : List Nat := []
  /-- the verdict table, per entry -/
  verdicts : List Verdict := []
  deriving DecidableEq, Repr

/-- An output ring (R210–R213, R280). -/
structure Ring where
  created : Bool := false
  base : Nat := 0
  log2 : Nat := 0
  pidxAddr : Nat := 0
  cidxAddr : Nat := 0
  p : Nat := 0
  c : Nat := 0
  /-- record places reserved at selection and not yet used or returned; on the front, those that other homes have been granted too -/
  reserved : Nat := 0
  /-- on a home that is not the front: record places granted by the front and not yet reserved by a stream, and whether it has asked for some -/
  quota : Nat := 0
  asking : Bool := false
  /-- on the front: modules that wait for record places, oldest first, and how many each asks for -/
  asks : List (Nat × Nat) := []
  /-- P of the newest fully written DELIVERY entry (R280) -/
  pj : Nat := 0
  /-- P has still to be written to PIDX again, on another port (R214, R330) -/
  again : Bool := false
  /-- records released by a verdict and not yet written: stream, SEQ, the record's bytes -/
  waiting : List (Nat × Nat × List Byte) := []
  deriving DecidableEq, Repr

/-- A registered collective (R112, R235). -/
structure Coll where
  registered : Bool := false
  op : Nat := 0
  operator : Nat := 0
  src : Nat := 0
  dst : Nat := 0
  task : Bool := false
  engine : Nat := 0
  level : Nat := 0
  n : Nat := 0
  count : Nat := 0
  root : Nat := 0
  chunks : Nat := 0
  ranks : List (Nat × Nat) := []
  sizes : List Nat := []
  /-- the epoch whose invocation is next or running -/
  epoch : Nat := 0
  /-- triggers accepted and on their way to the engine: rank and epoch -/
  arrived : List (Nat × Nat) := []
  triggered : List Nat := []
  /-- ranks that have triggered the epoch after the current one -/
  early : List Nat := []
  running : Bool := false
  /-- what waits for the running invocation: SEQ of the COLL_INVOKE, or of the GRAPH_LAUNCH (2^32 plus a step's number) with its node -/
  cmd : Option (Nat × Option Nat) := none
  /-- the launch whose tasks are the ranks, in TASK mode, and the next CSEQ of the engine's messages to each rank's task (R112, R309) -/
  launch : Nat := 0
  sent : Tab Nat := []
  /-- NV and OF that the registration's sums have set (R48, R59; DESIGN CHOICE, log 151) -/
  nv : Bool := false
  ovf : Bool := false
  /-- staging bytes reserved (R114) -/
  staging : Nat := 0
  /-- a word of the running invocation's staging is lost (R126) -/
  bad : Bool := false
  /-- members that have not answered whether the reservation fits there, and the COLL_REGISTER that waits: function and SEQ (R114) -/
  asking : List Nat := []
  askCmd : Option (Nat × Nat) := none
  deriving DecidableEq, Repr

/-- Task states (R95). -/
inductive TaskState where
  | pending | bound | moving | done
  deriving DecidableEq, Repr

/-- A task of a running kernel on this module (R94, R95). -/
structure Task where
  state : TaskState := .pending
  core : Nat := 0
  /-- messages held at the old core's router while MOVING (R95) -/
  held : List Msg := []
  deriving DecidableEq, Repr

/-- One barrier of a kernel (R107). -/
structure Bar where
  count : Nat := 0
  arrived : List Nat := []
  /-- tasks counted in a completed phase while stopped for a pre-emption, which pass when they execute BAR again -/
  owed : List Nat := []
  phase : Nat := 0
  /-- arrivals of other modules for phases after the current one: phase, task, count -/
  ahead : List (Nat × Nat × Nat) := []
  deriving DecidableEq, Repr

/-- A running LAUNCH, or the launch of a LAUNCH node of a graph or of a step (R89–R95, R234). -/
structure Launch where
  live : Bool := false
  /-- what waits for the launch: the SEQ of a command of Q2, or 2^32 plus the number of a step; none for a share started from another
  module -/
  seq : Option Nat := none
  /-- the graph node, when the launch is a node of a graph or step -/
  node : Option Nat := none
  /-- the stored graph whose step the launch belongs to, 0 for none (R204) -/
  graph : Nat := 0
  /-- address of the step descriptor, which heads each task's argument block; 0 for none (R197) -/
  descriptor : Nat := 0
  gx : Nat := 0
  gy : Nat := 0
  gz : Nat := 0
  coresident : Bool := false
  program : Nat := 0
  progLen : Nat := 0
  entry : Nat := 0
  argLen : Nat := 0
  args : Nat := 0
  extent : Nat := 0
  spillKib : Nat := 0
  /-- task indices homed here: first and one past the last (R90) -/
  lo : Nat := 0
  hi : Nat := 0
  /-- next index the binding engine takes (R91) -/
  next : Nat := 0
  tasks : Tab Task := []
  /-- messages for PENDING tasks, in arrival order (R95) -/
  spill : List Msg := []
  bars : Tab Bar := []
  /-- messages accepted and on their way to a task homed here, oldest first (R98) -/
  flight : List Msg := []
  /-- next sequence number expected from tasks of other modules and from collective engines, and messages that came early or wait for
  space, with the sender's module (R98, R309) -/
  rx : Tab Nat := []
  early : List (Nat × Msg) := []
  /-- a CORESIDENT kernel (R93): this share could bind all its tasks and keeps its cores; all shares could; on the module that started it, the
  modules whose share could not yet -/
  ready : Bool := false
  go : Bool := false
  unready : List Nat := []
  /-- member modules whose share of the grid has not ended, on the front; and where a share started from another module reports: that
  module and its number for the launch -/
  left : List Nat := []
  reportTo : Option (Nat × Nat) := none
  /-- a share started from another module has ended and been reported; it is kept till the kernel is over, so that its tasks are known as DONE -/
  ended : Bool := false
  discarded : Nat := 0
  failed : Option Nat := none
  deriving DecidableEq, Repr

/-- A Q1 command that waits for its journal entry (R276, R279). -/
structure Pending where
  jseq : Nat
  cmdSeq : Nat
  func : Nat
  mirrored : Bool
  stored : Bool
  needStore : Bool
  item : JournalItem
  deriving DecidableEq, Repr

/-- A member module of the virtual device, as the map names it (R90, R257). -/
structure Member where
  rank : Nat
  modId : Nat
  compute : Nat
  memory : Nat
  links : Nat := 0
  partner : Nat
  partnerValid : Bool
  present : Bool := true
  deriving DecidableEq, Repr

/-- TDISP states and codes (R332, R335). -/
inductive Tdi where
  | unlocked | locked | run | error
  deriving DecidableEq, Repr

/-- The Atlas view of the partition (R256–R274, R292). -/
structure Vd where
  used : Bool := false
  vdid : Nat := 0
  edition : Nat := 0
  rank : Nat := 0
  nextRank : Nat := 0
  front : Bool := false
  standby : Bool := false
  frontRank : Nat := 0
  standbyRank : Option Nat := none
  partner : Nat := 0
  partnerValid : Bool := false
  store : Nat := 0
  members : List Member := []
  /-- the overlap window for edition − 1 is open (R267) -/
  overlap : Bool := false
  /-- the edition this module, as arbiter, has prepared and not settled; the modules still to acknowledge; the change -/
  preparing : Option (Nat × List Nat × MapChange) := none
  /-- changes that wait, at the arbiter, until the edition in preparation is settled (R265) -/
  queued : List MapChange := []
  /-- the virtual device is released: its slices go to FREE; the front's module, which is told when they have -/
  released : Bool := false
  reportTo : Option Nat := none
  /-- packets held for the next edition (R266) -/
  heldPkts : List Packet := []
  /-- messages bounced here and not yet arrived again: sender's channel and CSEQ (R268) -/
  bounced : List (Nat × Nat) := []
  leaving : List Nat := []
  memGuar : List Nat := []
  linkGuar : Nat := 0
  scaled : Bool := false
  memScale : Nat := 0
  linkScale : Nat := 0
  secure : Bool := false
  /-- modules whose acknowledgement of the lock a LOCK_INTERFACE waits for (R347) -/
  locking : Option (List Nat) := none
  deriving DecidableEq, Repr

/-- Keys of the virtual device in this module's Cartouche bank (R360, R361, R364): newest and older live generation. -/
structure Keys where
  newest : Nat := 0
  older : Nat := 0
  /-- ME re-seals under the newest generation here (R364 step 3) -/
  sweeping : Bool := false
  /-- where the rotation runs: the members whose sweep has not ended; elsewhere: the module that runs it -/
  sweepLeft : List Nat := []
  rotator : Option Nat := none
  /-- a rotation is in its step 1 or 2 (R364): the generation drawn and the modules still to acknowledge it -/
  rotating : Option (Nat × List Nat) := none
  deriving DecidableEq, Repr

/-- The context of the partition's virtual device (R240–R242, R255). -/
structure Ctx where
  tag : Nat := 0
  state : CtxState := .none
  cause : Nat := 0
  lostFault : Nat := 0
  lostValid : Bool := false
  lostQueue : Nat := 0
  lostSeq : Nat := 0
  /-- lost by the fault of a part and so to be replayed (R242, R281) -/
  replaying : Bool := false
  deriving DecidableEq, Repr

/-- The host-facing side of the partition's VF (R325–R336, R418). -/
structure Vf where
  exposedA : Bool := false
  exposedB : Bool := false
  /-- active port, true for B -/
  active : Bool := false
  tdi : Tdi := .unlocked
  switchReq : Bool := false
  refused : Bool := false
  failedOver : Bool := false
  /-- the VF's enables on port A and on port B are reset (R323, R328) -/
  offA : Bool := false
  offB : Bool := false
  /-- doorbells on both ports are stopped because no port is usable (R331) -/
  noPort : Bool := false
  cntSnap : List W64 := []
  cntTime : Nat := 0
  /-- FREEZE bookkeeping: saved, restored from an image, the VDID has moved away (R338, R339) -/
  saved : Bool := false
  restored : Bool := false
  moved : Bool := false
  srcVdid : Nat := 0
  srcMod : Nat := 0
  /-- a verified migration target (R365) -/
  migTarget : Bool := false
  deriving DecidableEq, Repr

/-- The fence table of a function (R236–R239). -/
structure Fences where
  exist : Bool := false
  count : Nat := 0
  shadow : Nat := 0
  words : Tab W64 := []
  /-- changes waiting for the standby front's acknowledgement: fence index and new word -/
  unacked : List (Nat × W64) := []
  deriving DecidableEq, Repr

/-- Carve-out bookkeeping in 4 KiB pages (R172, R173): pages taken by message spill areas, and the count of pages migrated to the device. -/
structure Carve where
  /-- areas that firmware places: kind (0 translation, 1 save area of a compute slice, 2 stream table), channel, offset and pages -/
  areas : List (Nat × Nat × Nat × Nat) := []
  extra : Nat := 0
  migrated : Nat := 0
  deriving DecidableEq, Repr

/-- The stream side of the partition (R187–R214). -/
structure Str where
  tablePlaced : Bool := false
  streams : Tab Stream := []
  steps : Tab Step := []
  nextStep : Nat := 0
  rings : Tab Ring := []
  verdicts : Nat := 0
  replays : Tab (Option Replay) := []
  /-- replay has set the streams back to their inputs and selection has resumed (R281 step 4) -/
  replayOn : Bool := false
  /-- KV page numbers kept in reserve, by graph (R200) -/
  freePages : Tab (List Nat) := []
  /-- fronts that destroy their Q1 and await this sequencer's acknowledgement (R246, R247) -/
  stopFrom : List Nat := []
  /-- streams homed on another member that are not FREE, as their homes have told, with one more than their ring and their graph (R192, R194, R210) -/
  away : Tab (Nat × Nat) := []
  /-- SPEC_GEN of streams homed on another member, as the verdict messages leave it here (R205) -/
  specGens : Tab Nat := []
  /-- ownership tokens (edition, owner) by stream (R269) -/
  tokens : Tab (Nat × Nat) := []
  /-- handoffs under way: stream, edition, new owner, and whether the old owner has sent TRANSFER (R270) -/
  handoff : List (Nat × Nat × Nat × Bool) := []
  /-- by stream, the last SEQ that the producer has written or suppressed, and the CRC-64 state over the stream's records up to it (R280) -/
  delivered : Tab (Nat × BitVec 64) := []
  deriving DecidableEq, Repr

/-- The journal of the partition (R275–R278). -/
structure Journal where
  home : List JournalItem := []
  nextJseq : Nat := 1
  waiting : List Pending := []
  deriving DecidableEq, Repr

/-- Everything the module holds for one local partition number; number 64 holds the PF's own queue set and fences. -/
structure Part where
  vd : Vd := {}
  ctx : Ctx := {}
  vf : Vf := {}
  queues : Tab Queue := []
  fences : Fences := {}
  /-- range table (R157, R160) -/
  ranges : List Range := []
  /-- ranges withdrawn whose extents have not been returned yet, each with the module that waits for this one's transfers to drain (R181) -/
  dying : List (Range × Option Nat) := []
  rangeOp : Option RangeOp := none
  /-- ranges that leave for another module, and those that come from one (R178) -/
  aways : List Away := []
  coming : List Coming := []
  residence : Tab Residence := []
  pools : Tab Pool := []
  graphs : Tab Graph := []
  colls : Tab Coll := []
  launches : Tab Launch := []
  /-- number that the next launch takes: the model's own name for a running kernel -/
  nextLaunch : Nat := 0
  /-- save records and parking areas (R86, R106) -/
  saves : List SaveRec := []
  str : Str := {}
  journal : Journal := {}
  keys : Keys := {}
  carve : Carve := {}
  /-- partition counters by index (R415, R416) -/
  counters : Tab W64 := []
  /-- ERR_PROGRESS (R378) -/
  progress : W32 := 0
  deriving DecidableEq, Repr

/-- A migration image (R338–R340, R365) as the data that its units seal; the order and layout of its sections beyond R340 are open (log 67). -/
structure MigImage where
  /-- header version; 1 in LA3 -/
  version : Nat
  /-- the source's VDID, under which the units are sealed, and its live key generations, wrapped for the destination -/
  srcVdid : Nat
  newest : Nat
  older : Nat
  /-- compute slices, memory slices, cache granules and scratchpad granules of the source, in rising order -/
  clusters : List Nat
  chans : List Nat
  caches : List Nat
  granules : List Nat
  /-- function, context, tables, streams, journal and save records -/
  part : Part
  /-- contents of placed extents and scratchpad granules: a target's type and place in its list, offset, byte; and the metadata of lines and the
  poison of words by the same address -/
  cells : List (Nat × Nat × Nat × Byte)
  metas : List (Nat × Nat × Nat × BitVec 16)
  poisons : List (Nat × Nat × Nat)
  deriving DecidableEq, Repr

end Sys2Proof.Machine
end

