-- ==== Sys2Proof/Syntax.lean ====
section
/-! DEFINITION. The commands the block takes: one constructor of Instr per row of the table of commands, with the row's operands. -/

namespace Sys2Proof

/-- The commands of the block: one constructor per row of the table. Core rows carry the global core index `c` and the raw
fields of the instruction word (R69); rows of queue opcodes carry the function `f` (0–63 a partition, 64 the PF) and the
SEQ of a started command of that function's queue; rows about the outside carry what the outside supplied. -/
inductive Instr where
  -- scalar ALU (R70, R71)
  | add (c : Nat) (rd ra rb : BitVec 5) (pred : BitVec 3)
  | sub (c : Nat) (rd ra rb : BitVec 5) (pred : BitVec 3)
  | and (c : Nat) (rd ra rb : BitVec 5) (pred : BitVec 3)
  | or (c : Nat) (rd ra rb : BitVec 5) (pred : BitVec 3)
  | xor (c : Nat) (rd ra rb : BitVec 5) (pred : BitVec 3)
  | shl (c : Nat) (rd ra rb : BitVec 5) (pred : BitVec 3)
  | shr (c : Nat) (rd ra rb : BitVec 5) (pred : BitVec 3)
  | sra (c : Nat) (rd ra rb : BitVec 5) (pred : BitVec 3)
  | mul (c : Nat) (rd ra rb : BitVec 5) (pred : BitVec 3)
  | mulh (c : Nat) (rd ra rb : BitVec 5) (pred : BitVec 3)
  | div (c : Nat) (rd ra rb : BitVec 5) (pred : BitVec 3)
  | rem (c : Nat) (rd ra rb : BitVec 5) (pred : BitVec 3)
  | slt (c : Nat) (rd ra rb : BitVec 5) (pred : BitVec 3)
  | sltu (c : Nat) (rd ra rb : BitVec 5) (pred : BitVec 3)
  | min (c : Nat) (rd ra rb : BitVec 5) (pred : BitVec 3)
  | max (c : Nat) (rd ra rb : BitVec 5) (pred : BitVec 3)
  | addi (c : Nat) (rd ra : BitVec 5) (imm : BitVec 16)
  | lui (c : Nat) (rd ra : BitVec 5) (imm : BitVec 16)
  | andi (c : Nat) (rd ra : BitVec 5) (imm : BitVec 16)
  | ori (c : Nat) (rd ra : BitVec 5) (imm : BitVec 16)
  | slti (c : Nat) (rd ra : BitVec 5) (imm : BitVec 16)
  | beq (c : Nat) (ra rb : BitVec 5) (off : BitVec 16)
  | bne (c : Nat) (ra rb : BitVec 5) (off : BitVec 16)
  | blt (c : Nat) (ra rb : BitVec 5) (off : BitVec 16)
  | bge (c : Nat) (ra rb : BitVec 5) (off : BitVec 16)
  | jal (c : Nat) (off : BitVec 26)
  | jr (c : Nat) (rd ra rb : BitVec 5) (func : BitVec 8) (pred : BitVec 3)
  | endTask (c : Nat) (rsv : BitVec 26)
  -- local memory (R65, R70)
  | ld (c : Nat) (rd base : BitVec 5) (off : BitVec 13) (size : BitVec 3)
  | ldu (c : Nat) (rd base : BitVec 5) (off : BitVec 13) (size : BitVec 3)
  | st (c : Nat) (rd base : BitVec 5) (off : BitVec 13) (size : BitVec 3)
  | vld (c : Nat) (vd base : BitVec 5) (off : BitVec 13) (pred : BitVec 3)
  | vst (c : Nat) (vd base : BitVec 5) (off : BitVec 13) (pred : BitVec 3)
  -- vector element-wise (R57, R70, R71)
  | vadd (c : Nat) (vd va vb : BitVec 5) (ty pred : BitVec 3)
  | vsub (c : Nat) (vd va vb : BitVec 5) (ty pred : BitVec 3)
  | vmul (c : Nat) (vd va vb : BitVec 5) (ty pred : BitVec 3)
  | vfma (c : Nat) (vd va vb : BitVec 5) (ty pred : BitVec 3)
  | vmax (c : Nat) (vd va vb : BitVec 5) (ty pred : BitVec 3)
  | vmin (c : Nat) (vd va vb : BitVec 5) (ty pred : BitVec 3)
  | vabs (c : Nat) (vd va vb : BitVec 5) (ty pred : BitVec 3)
  | vneg (c : Nat) (vd va vb : BitVec 5) (ty pred : BitVec 3)
  | vexp (c : Nat) (vd va vb : BitVec 5) (ty pred : BitVec 3)
  | vrcp (c : Nat) (vd va vb : BitVec 5) (ty pred : BitVec 3)
  | vsqrt (c : Nat) (vd va vb : BitVec 5) (ty pred : BitVec 3)
  | vand (c : Nat) (vd va vb : BitVec 5) (ty pred : BitVec 3)
  | vor (c : Nat) (vd va vb : BitVec 5) (ty pred : BitVec 3)
  | vxor (c : Nat) (vd va vb : BitVec 5) (ty pred : BitVec 3)
  | vshl (c : Nat) (vd va vb : BitVec 5) (ty pred : BitVec 3)
  | vshr (c : Nat) (vd va vb : BitVec 5) (ty pred : BitVec 3)
  | vcvt (c : Nat) (vd va : BitVec 5) (dst src : BitVec 4) (rnd sat blk : Bool) (rsv : BitVec 2) (pred : BitVec 3)
  | vsum (c : Nat) (vd va vb : BitVec 5) (ty pred : BitVec 3)
  | vrmax (c : Nat) (vd va vb : BitVec 5) (ty pred : BitVec 3)
  | vrmin (c : Nat) (vd va vb : BitVec 5) (ty pred : BitVec 3)
  | vcmpEq (c : Nat) (pd va vb : BitVec 5) (ty pred : BitVec 3)
  | vcmpNe (c : Nat) (pd va vb : BitVec 5) (ty pred : BitVec 3)
  | vcmpLt (c : Nat) (pd va vb : BitVec 5) (ty pred : BitVec 3)
  | vcmpLe (c : Nat) (pd va vb : BitVec 5) (ty pred : BitVec 3)
  | vbcast (c : Nat) (vd ra rb : BitVec 5) (ty pred : BitVec 3)
  | vmovs (c : Nat) (rd va rb : BitVec 5) (ty pred : BitVec 3)
  | vsel (c : Nat) (vd va vb : BitVec 5) (ty pred : BitVec 3)
  | vperm (c : Nat) (vd va vb : BitVec 5) (ty pred : BitVec 3)
  -- matrix engine (R73–R79)
  | mload (c : Nat) (slot part : Bool) (fmt : BitVec 4) (mx : Bool) (sa sb : BitVec 5) (rsv : BitVec 9)
  | mmac (c : Nat) (tile : BitVec 3) (slot opn : Bool) (sa : BitVec 5) (sub : BitVec 4) (rsv : BitVec 12)
  | matrixChunkSummed (c : Nat)
  | mstore (c : Nat) (tile : BitVec 3) (fmt : BitVec 4) (rnd sat : Bool) (sa : BitVec 5) (rsv : BitVec 12)
  | mscale (c : Nat) (tile : BitVec 3) (sa : BitVec 5) (rsv : BitVec 18)
  -- message unit (R97–R107); `func` is bits [10:3] of the word
  | send (c : Nat) (rd ra rb : BitVec 5) (func : BitVec 8) (pred : BitVec 3)
  | sendAccepted (c : Nat) (k : Nat)
  | recv (c : Nat) (rd ra rb : BitVec 5) (func : BitVec 8) (pred : BitVec 3)
  | put (c : Nat) (rd ra rb : BitVec 5) (func : BitVec 8) (pred : BitVec 3)
  | get (c : Nat) (rd ra rb : BitVec 5) (func : BitVec 8) (pred : BitVec 3)
  | waitmsg (c : Nat) (rd ra rb : BitVec 5) (func : BitVec 8) (pred : BitVec 3)
  | waitmsgTimeout (c : Nat)
  | bar (c : Nat) (rd ra rb : BitVec 5) (func : BitVec 8) (pred : BitVec 3)
  | fenceop (c : Nat) (m st g x : Bool) (rsv : BitVec 22)
  | time (c : Nat) (rd ra rb : BitVec 5) (func : BitVec 8) (pred : BitVec 3)
  | yieldTask (c : Nat) (rd ra rb : BitVec 5) (func : BitVec 8) (pred : BitVec 3)
  | mfs (c : Nat) (rd ra : BitVec 5) (imm : BitVec 16)
  | mts (c : Nat) (rd ra : BitVec 5) (imm : BitVec 16)
  -- binding, pre-emption, delivery (R82–R96); `ext` is what memory outside the module returned
  | taskBind (n : Nat) (ext : List Byte)
  | preemptRequest (c : Nat)
  | preemptStopTimeout (c : Nat)
  | matrixQueueDrained (c : Nat)
  | saveRecordWritten (c : Nat)
  | restore (n launch task : Nat)
  | forwardComplete (c : Nat)
  | programImageReload (c : Nat) (ok : Bool)
  | messageDeliver (src : Origin) (m : Msg)
  | coreMapUpdate (router launch task place : Nat)
  | barArrival (n launch barrier count task : Nat)
  -- requests at their memories (R109, R118–R122, R141, R349)
  | putWriteAtTarget (m : Master) (n : Nat) (va : Nat) (data : List Byte) (port0 : List (Nat × List Byte))
  | getReadAtTarget (m : Master) (n : Nat) (va len : Nat) (errs second : List (Nat × Byte))
  | response (c k : Nat) (r : Resp) (data : List Byte)
  | collideRetry (c k : Nat) (port0 : List (Nat × List Byte))
  | bulkWrite (src : Origin) (va : Nat) (data : List Byte)
  | bulkRead (src : Origin) (ask : ReadAsk) (errs second : List (Nat × Byte))
  -- collectives (R111–R116); `contrib` holds, per rank, the source bytes read
  | collTrigger (n handle rank epoch : Nat)
  | collEpochDone (n handle : Nat) (contrib : List (List Byte)) (poisoned : Bool)
  -- streams (R187–R214)
  | verdictApply (n step : Nat) (items : List VerdictItem)
  | stepTasksEnded (n step : Nat) (ext : List Byte)
  | verdictAcksComplete (n step : Nat)
  | selectStep (n graph ver : Nat)
  | streamSlotFetch (n stream : Nat)
  | kvSpill (n : Nat) (inst : GraphVer) (ext : List Byte)
  | kvReload (n stream : Nat) (authentic : Bool)
  | kvPagesFreed (n graph : Nat)
  | ringRecordsPublish (n ring : Nat)
  | cidxPoll (n ring : Nat) (value : W64)
  | streamOpen (f seq : Nat)
  | streamAppend (f seq : Nat)
  | streamPause (f seq : Nat)
  | streamResume (f seq : Nat)
  | streamCancel (f seq : Nat)
  | streamClose (f seq : Nat)
  | ringCreate (f seq : Nat)
  | ringDestroy (f seq : Nat)
  -- journal (R275–R279, R344)
  | journalAccept (n jseq : Nat)
  | journalMirror (item : JournalItem)
  | storeWriteComplete (n jseq : Nat) (ok : Bool)
  -- queues and fences (R221–R239)
  | sqTailWrite (f q port : Nat) (tail : W32)
  | cqHeadWrite (f q port : Nat) (head : W32)
  | packetFetch (f q : Nat) (units : List W64)
  | commandStart (f q seq : Nat)
  | completionRecord (f q seq : Nat)
  | commandTimeout (f q seq : Nat)
  | fenceStandbyAck (n : Nat)
  | fenceStandbyTimeout (n : Nat)
  | nop (f q seq : Nat)
  | wait (f q seq : Nat)
  | signal (f q seq : Nat)
  | fenceSetup (f seq : Nat)
  | rangeMap (f seq : Nat)
  | rangeUnmap (f seq : Nat)
  | llmConfig (f seq : Nat)
  | graphStore (f seq : Nat) (image genBlock : List Byte)
  | graphPatch (f seq : Nat) (patch : List Byte)
  | graphDestroy (f seq : Nat)
  | launch (f seq : Nat)
  | graphLaunch (f seq : Nat)
  | graphNodeStart (f seq node : Nat) (ext : List Byte)
  | copy (f seq : Nat) (ext : List Byte)
  | fill (f seq : Nat)
  | convert (f seq : Nat) (ext : List Byte)
  | collRegister (f seq : Nat) (ranks sizes : List Byte)
  | collInvoke (f seq : Nat)
  | collRelease (f seq : Nat)
  | migrateReturn (f seq : Nat)
  | rebalance (f seq : Nat)
  | selftest (f seq : Nat)
  | margin (f seq : Nat)
  | selftestDone (result : Nat)
  | queueCreate (func queue : Nat)
  | queueDestroy (func queue : Nat)
  | ctxSet (func : Nat)
  | ctxDestroy (func : Nat)
  | engineAbortAck (f q : Nat) (engine : Nat)
  | engineAbortTimeout (f q : Nat)
  | fenceSignal (f : Nat) (value : W64)
  -- allocator (R174–R176)
  | alloc (n base task order : Nat) (zero : Bool)
  | free (n base task addr : Nat)
  | allocPortGet (n base task : Nat)
  -- composition (R256–R264); the descriptor's words as read from host memory
  | vdCreate (words : List W64)
  | vdGrow (words : List W64)
  | vdShrink (words : List W64)
  | vdRelease (words : List W64)
  | vdSet (words : List W64)
  | reserve (origin vdid : Nat) (slices : List Nat) (granules : List Nat)
  | prepare (vdid edition : Nat) (change : MapChange)
  | settle (vdid edition : Nat)
  | overlapWindowClose (vdid : Nat)
  | editionAckTimeout (vdid modId : Nat)
  | editionHoldTimeout (vdid : Nat)
  | fabricPacketReceive (k : Nat) (p : Packet)
  | packetReturn (p : Packet)
  | routeFailTimeout (dst : Nat) (ms : Nat)
  | transfer (vdid : Nat) (stream edition owner : Nat) (slot : List W64) (items : List JournalItem)
  | held (vdid stream edition owner : Nat)
  | released (vdid stream edition : Nat)
  | handoffTimeout (vdid stream : Nat) (copies : List (Nat × Nat × Nat))
  | arbiterTakeover (vdid failed : Nat)
  | sliceReturn (slice : Nat)
  | capacityChange (resource capacity : Nat)
  | replayStart (n : Nat) (reads : List (Nat × Nat × Nat × List (List Byte)))
  | replayComplete (n : Nat)
  -- links and fabric (R293–R319)
  | linkTrain (k : Nat) (t : TrainResult)
  | retrain (k : Nat)
  | frameReceive (k : Nat) (fl : Flit) (badBytes : List Nat) (tagOk : Bool)
  | nakReplay (k ack : Nat)
  | keyEpochRoll (k : Nat)
  | oldKeyErase (k : Nat)
  | laneRecalibrate (k : Nat)
  | laneFail (k lane : Nat)
  | route (group members : List (Nat × W32))
  | linkStateChange (k st : Nat)
  | lnkModidWrite (v : W32)
  | idClaim (k id : Nat)
  | idClaimTimeout
  | rootHeartbeat (id : Nat)
  | heartbeatTimeout (alive : List Nat)
  | rootVdidCollect (vdids : List Nat)
  | abort (vdid cause status origin count : Nat)
  | timeExchange (t1 t2 t3 t4 : Nat)
  -- host ports (R321–R345)
  | flr (port fn : Nat)
  | perst (port : Nat)
  | hotReset (port : Nat)
  | vfMbxSend (port n : Nat) (len : Nat)
  | glbMbxDone (port n : Nat)
  | switch (n : Nat)
  | portFailure (port : Nat)
  | flushRead (port : Nat)
  | flushReadComplete (port : Nat)
  | noPortTimeout (n : Nat)
  | atsInvalidateRequest (port fn pasid page : Nat) (pages : Nat)
  | pageFault (port fn pasid page : Nat) (holder : Nat × Nat)
  | pageRequestGroupResponse (fn pasid page : Nat) (success : Bool)
  | pageMigrate (n page : Nat) (data : List Byte)
  | slotMove (n base slot dest : Nat)
  | sliceEvacuate (n slice : Nat)
  | surAtcInv (port : Nat) (all : Bool) (fn : Nat)
  | lockInterface (n : Nat)
  | startInterface (n : Nat)
  | stopInterface (n : Nat)
  | getDeviceInterfaceReport (n : Nat)
  | freeze (n : Nat)
  | save (n : Nat)
  | restoreImage (n : Nat) (image : Machine.MigImage) (authentic : Bool)
  | thaw (n : Nat)
  | discard (n : Nat)
  | peerWindowAccess (off : Nat) (write : Bool) (data : List Byte)
  -- security (R346–R370)
  | keyRotate
  | resealSweepEnd (n : Nat)
  | migTarget (chainOk killed opn : Bool)
  | commitSvn
  | keyStatus
  | tenantKeyDelivery (vdid gen older : Nat) (source : Nat)
  | getVersion (session : Nat)
  | getCapabilities (session : Nat)
  | negotiateAlgorithms (session : Nat) (offered : List Nat)
  | getDigests (session : Nat)
  | getCertificate (session slot : Nat)
  | challenge (session slot : Nat) (nonce : W64)
  | getMeasurements (session index : Nat)
  | keyExchange (session : Nat)
  | finish (session : Nat) (ok : Bool)
  | heartbeat (session : Nat)
  | keyUpdate (session : Nat)
  | endSession (session : Nat)
  | vendorDefinedRequest (session : Nat) (proto : Nat) (payload : List Byte)
  | secureBoot (okA okB : Bool)
  | alarm (code : Nat)
  | tamperLoopOpen
  | tamperMeshBreach
  | monitorOutOfRange
  | faultInjectionDetect
  | decommissionRequest (authorised : Bool)
  | debugAuthorisation (authorised : Bool) (target : Nat)
  -- errors, hangs, recovery (R373–R395)
  | foldWindowEnd (cls code utype uindex vdid : Nat)
  | errRingCidxWrite (v : W32)
  | errHang (n : Nat)
  | wfgSweep (vdid : Nat) (waits : List WaitEdge) (us : Nat)
  | processorWatchdogExpiry (p : Nat)
  | engineStall (e : Nat)
  | failureDeclaration (vdid modId edition : Nat)
  | isolationTimeout (vdid : Nat)
  | moduleRecovery (vdid rank edition : Nat) (returned : Bool)
  | stackRecovery (stack : Nat) (failedChannels : List Nat)
  | recoveryReplace (n : Nat)
  | crashDump (reason : Nat) (byCartouche : Bool)
  | errDumpDest (addr : W64)
  | lineRepair (n pa : Nat) (data : List Byte)
  | lineRepairFail (n pa : Nat)
  | rowRepair (g bank row : Nat)
  | pageRetire (g page : Nat)
  | patrolRead (pa : Nat) (errs second : List (Nat × Byte)) (written : Bool)
  | sramPatrol (kind unit word : Nat) (badBits : Nat)
  | stackRecalibrate (g : Nat)
  | stackRefresh (g bank : Nat)
  | innerEccReadout (stack count : Nat)
  | sliceErase (slice : Nat)
  | sliceEraseEnd (slice : Nat)
  | retirePendingTake (g : Nat)
  | channelSlotIssue (g : Nat)
  | urgentMarkExpiry (g k : Nat)
  -- power, clocks, time (R397–R408)
  | activityEstimate (c : Nat) (watts : Nat)
  | weightRefit (weights : List Nat)
  | issueRateUpdate (rates : List (Nat × Nat)) (pin : Nat)
  | clockStep (c : Nat) (down : Bool)
  | droop (c : Nat) (percent : Nat)
  | droopRestore (c : Nat)
  | vinChange (mv10 : Nat) (us : Nat)
  | inputCurrentLimit (meanMa10 peakMa10 : Nat)
  | throttleN (low : Bool)
  | pldmSetPowerCap (w : Nat)
  | temperatureThreshold (sensor unit celsius : Nat)
  | thermalShutdown (sensor celsius : Nat)
  | meridianTick
  | interpolatorResync (c : Nat) (stoppedAt : Nat) (cause : Nat)
  -- counters, trace, event controller (R415–R435)
  | vfCntSnap (n : Nat)
  | traceRecord (t : Nat) (typ part : Nat) (pvalid : Bool) (source : Nat) (data : List W64)
  | traceTrigger (t sel : Nat)
  | trcCtlEnable (t : Nat) (v : W32)
  | tracePostEnd (t : Nat)
  | evcClaim (target : Nat)
  | evcEoi (target id : Nat)
  | evcPrivSet (target : Nat) (bits : W32)
  | evcShSet (target id : Nat)
  | evcShRouteWrite (target id : Nat) (v : W32)
  | eventSourceLevel (target id : Nat) (level : Bool)
  | moderationTimeout (target : Nat)
  -- bring-up, reset, firmware (R436–R452)
  | pwrEnRise
  | pwrEnFall
  | modRstNFall
  | modRstNRise
  | stackTraining (stack : Nat) (ok : Bool)
  | pldmFwTransfer (svn : Nat) (ok : Bool)
  | activateFirmware
  -- registers without a row of their own (R7–R10)
  | registerWrite (bar func port : Nat) (offset width : Nat) (value : W64) (tbit : Bool)
  | frameSend (k : Nat)
  | matrixInstructionComplete (c : Nat)
  | marginSweepEnd (g : Nat) (eyes : List (Nat × Nat))
  | reserveTimeout
  | registerRead (bar func port : Nat) (offset width : Nat) (tbit : Bool)
  | portLinkUp (port gen width : Nat) (ats : List (Nat × Nat))
  | stackTrainingLoss (g : Nat)
  | stackControllerStall (stack : Nat)
  | cartoucheMonitorTimeout
  | resetReadyTimeout (vdid modId : Nat)
  deriving DecidableEq, Repr

end Sys2Proof
end

