-- ==== Sys2Proof/Decode.lean ====
section
/-! DEFINITION. Instruction words of the core: the formats of R69, the assignments of R70, and their decoding. The table of commands gives its own rows no bits. -/

namespace Sys2Proof

/-- No row of the table of commands gives bits: a word spells no command (DESIGN CHOICE, log 118). -/
def decodeTableWord (_nbits _w : Nat) : Option Instr := none

-- the formats of R69, major opcode first

/-- Format T: rd, ra, rb, func [10:3], pred [2:0]. -/
def wordT (major : Nat) (rd ra rb : BitVec 5) (func : BitVec 8) (pred : BitVec 3) : W32 :=
  BitVec.ofNat 6 major ++ rd ++ ra ++ rb ++ func ++ pred
/-- Formats I and B: two registers and sixteen bits. -/
def wordI (major : Nat) (rd ra : BitVec 5) (imm : BitVec 16) : W32 := BitVec.ofNat 6 major ++ rd ++ ra ++ imm
/-- Format J. -/
def wordJ (major : Nat) (off : BitVec 26) : W32 := BitVec.ofNat 6 major ++ off
/-- Format M. -/
def wordM (major : Nat) (rd base : BitVec 5) (off : BitVec 13) (low : BitVec 3) : W32 :=
  BitVec.ofNat 6 major ++ rd ++ base ++ off ++ low
/-- func [10:3] of a vector instruction: operation in [10:6], element type in [5:3] (R70). -/
def vfunc (op : Nat) (ty : BitVec 3) : BitVec 8 := BitVec.ofNat 5 op ++ ty
/-- A vector instruction's word (R70). -/
def vword (major op : Nat) (vd va vb : BitVec 5) (ty pred : BitVec 3) : W32 := wordT major vd va vb (vfunc op ty) pred

/-- One bit. -/
def bit1 (b : Bool) : BitVec 1 := BitVec.ofBool b

/-- VCVT (R70, R72). -/
def wordVcvt (vd va : BitVec 5) (dst src : BitVec 4) (rnd sat blk : Bool) (rsv : BitVec 2) (pred : BitVec 3) : W32 :=
  0x19#6 ++ vd ++ va ++ dst ++ src ++ bit1 rnd ++ bit1 sat ++ bit1 blk ++ rsv ++ pred
/-- MLOAD (R74). -/
def wordMload (slot part : Bool) (fmt : BitVec 4) (mx : Bool) (sa sb : BitVec 5) (rsv : BitVec 9) : W32 :=
  0x20#6 ++ bit1 slot ++ bit1 part ++ fmt ++ bit1 mx ++ sa ++ sb ++ rsv
/-- MMAC (R75). -/
def wordMmac (tile : BitVec 3) (slot opn : Bool) (sa : BitVec 5) (sub : BitVec 4) (rsv : BitVec 12) : W32 :=
  0x21#6 ++ tile ++ bit1 slot ++ bit1 opn ++ sa ++ sub ++ rsv
/-- MSTORE (R78). -/
def wordMstore (tile : BitVec 3) (fmt : BitVec 4) (rnd sat : Bool) (sa : BitVec 5) (rsv : BitVec 12) : W32 :=
  0x22#6 ++ tile ++ fmt ++ bit1 rnd ++ bit1 sat ++ sa ++ rsv
/-- MSCALE (R78). -/
def wordMscale (tile : BitVec 3) (sa : BitVec 5) (rsv : BitVec 18) : W32 := 0x23#6 ++ tile ++ sa ++ rsv
/-- FENCEOP (R70). -/
def wordFenceop (m st g x : Bool) (rsv : BitVec 22) : W32 := 0x31#6 ++ bit1 m ++ bit1 st ++ bit1 g ++ bit1 x ++ rsv

/-- The word of an instruction of a core; none for every other command (R69, R70). -/
def coreWord : Instr → Option W32
  | .add _ rd ra rb p => some (wordT 1 rd ra rb 0 p)
  | .sub _ rd ra rb p => some (wordT 1 rd ra rb 1 p)
  | .and _ rd ra rb p => some (wordT 1 rd ra rb 2 p)
  | .or _ rd ra rb p => some (wordT 1 rd ra rb 3 p)
  | .xor _ rd ra rb p => some (wordT 1 rd ra rb 4 p)
  | .shl _ rd ra rb p => some (wordT 1 rd ra rb 5 p)
  | .shr _ rd ra rb p => some (wordT 1 rd ra rb 6 p)
  | .sra _ rd ra rb p => some (wordT 1 rd ra rb 7 p)
  | .mul _ rd ra rb p => some (wordT 1 rd ra rb 8 p)
  | .mulh _ rd ra rb p => some (wordT 1 rd ra rb 9 p)
  | .div _ rd ra rb p => some (wordT 1 rd ra rb 10 p)
  | .rem _ rd ra rb p => some (wordT 1 rd ra rb 11 p)
  | .slt _ rd ra rb p => some (wordT 1 rd ra rb 12 p)
  | .sltu _ rd ra rb p => some (wordT 1 rd ra rb 13 p)
  | .min _ rd ra rb p => some (wordT 1 rd ra rb 14 p)
  | .max _ rd ra rb p => some (wordT 1 rd ra rb 15 p)
  | .addi _ rd ra i => some (wordI 2 rd ra i)
  | .lui _ rd ra i => some (wordI 3 rd ra i)
  | .andi _ rd ra i => some (wordI 4 rd ra i)
  | .ori _ rd ra i => some (wordI 5 rd ra i)
  | .slti _ rd ra i => some (wordI 6 rd ra i)
  | .beq _ ra rb o => some (wordI 8 ra rb o)
  | .bne _ ra rb o => some (wordI 9 ra rb o)
  | .blt _ ra rb o => some (wordI 10 ra rb o)
  | .bge _ ra rb o => some (wordI 11 ra rb o)
  | .jal _ o => some (wordJ 12 o)
  | .jr _ rd ra rb f p => some (wordT 13 rd ra rb f p)
  | .endTask _ r => some (wordJ 14 r)
  | .ld _ rd b o z => some (wordM 16 rd b o z)
  | .ldu _ rd b o z => some (wordM 17 rd b o z)
  | .st _ rd b o z => some (wordM 18 rd b o z)
  | .vld _ vd b o p => some (wordM 19 vd b o p)
  | .vst _ vd b o p => some (wordM 20 vd b o p)
  | .vadd _ vd va vb t p => some (vword 24 0 vd va vb t p)
  | .vsub _ vd va vb t p => some (vword 24 1 vd va vb t p)
  | .vmul _ vd va vb t p => some (vword 24 2 vd va vb t p)
  | .vfma _ vd va vb t p => some (vword 24 3 vd va vb t p)
  | .vmax _ vd va vb t p => some (vword 24 4 vd va vb t p)
  | .vmin _ vd va vb t p => some (vword 24 5 vd va vb t p)
  | .vabs _ vd va vb t p => some (vword 24 6 vd va vb t p)
  | .vneg _ vd va vb t p => some (vword 24 7 vd va vb t p)
  | .vexp _ vd va vb t p => some (vword 24 8 vd va vb t p)
  | .vrcp _ vd va vb t p => some (vword 24 9 vd va vb t p)
  | .vsqrt _ vd va vb t p => some (vword 24 10 vd va vb t p)
  | .vand _ vd va vb t p => some (vword 24 11 vd va vb t p)
  | .vor _ vd va vb t p => some (vword 24 12 vd va vb t p)
  | .vxor _ vd va vb t p => some (vword 24 13 vd va vb t p)
  | .vshl _ vd va vb t p => some (vword 24 14 vd va vb t p)
  | .vshr _ vd va vb t p => some (vword 24 15 vd va vb t p)
  | .vcvt _ vd va d q r st b v p => some (wordVcvt vd va d q r st b v p)
  | .vsum _ vd va vb t p => some (vword 26 0 vd va vb t p)
  | .vrmax _ vd va vb t p => some (vword 26 1 vd va vb t p)
  | .vrmin _ vd va vb t p => some (vword 26 2 vd va vb t p)
  | .vcmpEq _ pd va vb t p => some (vword 27 0 pd va vb t p)
  | .vcmpNe _ pd va vb t p => some (vword 27 1 pd va vb t p)
  | .vcmpLt _ pd va vb t p => some (vword 27 2 pd va vb t p)
  | .vcmpLe _ pd va vb t p => some (vword 27 3 pd va vb t p)
  | .vbcast _ vd ra rb t p => some (vword 28 0 vd ra rb t p)
  | .vmovs _ rd va rb t p => some (vword 28 1 rd va rb t p)
  | .vsel _ vd va vb t p => some (vword 28 2 vd va vb t p)
  | .vperm _ vd va vb t p => some (vword 28 3 vd va vb t p)
  | .mload _ sl pt f mx sa sb r => some (wordMload sl pt f mx sa sb r)
  | .mmac _ tl sl o sa su r => some (wordMmac tl sl o sa su r)
  | .mstore _ tl f rn st sa r => some (wordMstore tl f rn st sa r)
  | .mscale _ tl sa r => some (wordMscale tl sa r)
  | .send _ rd ra rb f p => some (wordT 40 rd ra rb f p)
  | .recv _ rd ra rb f p => some (wordT 41 rd ra rb f p)
  | .put _ rd ra rb f p => some (wordT 42 rd ra rb f p)
  | .get _ rd ra rb f p => some (wordT 43 rd ra rb f p)
  | .waitmsg _ rd ra rb f p => some (wordT 44 rd ra rb f p)
  | .bar _ rd ra rb f p => some (wordT 48 rd ra rb f p)
  | .fenceop _ m st g x r => some (wordFenceop m st g x r)
  | .time _ rd ra rb f p => some (wordT 56 rd ra rb f p)
  | .yieldTask _ rd ra rb f p => some (wordT 57 rd ra rb f p)
  | .mfs _ rd ra i => some (wordI 58 rd ra i)
  | .mts _ rd ra i => some (wordI 59 rd ra i)
  | _ => none

-- decoding: the instruction of core `c` that a word is; none for a word that R70 assigns to no instruction

/-- ALU by func (R70). -/
def decodeAlu (c : Nat) (rd ra rb : BitVec 5) (func : BitVec 8) (p : BitVec 3) : Option Instr :=
  match func.toNat with
  | 0 => some (.add c rd ra rb p) | 1 => some (.sub c rd ra rb p) | 2 => some (.and c rd ra rb p) | 3 => some (.or c rd ra rb p)
  | 4 => some (.xor c rd ra rb p) | 5 => some (.shl c rd ra rb p) | 6 => some (.shr c rd ra rb p) | 7 => some (.sra c rd ra rb p)
  | 8 => some (.mul c rd ra rb p) | 9 => some (.mulh c rd ra rb p) | 10 => some (.div c rd ra rb p) | 11 => some (.rem c rd ra rb p)
  | 12 => some (.slt c rd ra rb p) | 13 => some (.sltu c rd ra rb p) | 14 => some (.min c rd ra rb p) | 15 => some (.max c rd ra rb p)
  | _ => none

/-- VOP by operation (R70). -/
def decodeVop (c : Nat) (vd va vb : BitVec 5) (op : BitVec 5) (t p : BitVec 3) : Option Instr :=
  match op.toNat with
  | 0 => some (.vadd c vd va vb t p) | 1 => some (.vsub c vd va vb t p) | 2 => some (.vmul c vd va vb t p)
  | 3 => some (.vfma c vd va vb t p) | 4 => some (.vmax c vd va vb t p) | 5 => some (.vmin c vd va vb t p)
  | 6 => some (.vabs c vd va vb t p) | 7 => some (.vneg c vd va vb t p) | 8 => some (.vexp c vd va vb t p)
  | 9 => some (.vrcp c vd va vb t p) | 10 => some (.vsqrt c vd va vb t p) | 11 => some (.vand c vd va vb t p)
  | 12 => some (.vor c vd va vb t p) | 13 => some (.vxor c vd va vb t p) | 14 => some (.vshl c vd va vb t p)
  | 15 => some (.vshr c vd va vb t p)
  | _ => none

/-- VRED, VCMP and VMISC by major opcode and operation (R70). -/
def decodeLanes (c major : Nat) (vd va vb : BitVec 5) (op : BitVec 5) (t p : BitVec 3) : Option Instr :=
  match major, op.toNat with
  | 26, 0 => some (.vsum c vd va vb t p) | 26, 1 => some (.vrmax c vd va vb t p) | 26, 2 => some (.vrmin c vd va vb t p)
  | 27, 0 => some (.vcmpEq c vd va vb t p) | 27, 1 => some (.vcmpNe c vd va vb t p) | 27, 2 => some (.vcmpLt c vd va vb t p)
  | 27, 3 => some (.vcmpLe c vd va vb t p)
  | 28, 0 => some (.vbcast c vd va vb t p) | 28, 1 => some (.vmovs c vd va vb t p) | 28, 2 => some (.vsel c vd va vb t p)
  | 28, 3 => some (.vperm c vd va vb t p)
  | _, _ => none

/-- The instruction that a word is on core `c`; none for an unassigned major opcode or func, among them the word 0 (R69, R70). A word with a
reserved field that is not zero decodes, and its instruction is illegal. -/
def decodeCore (c : Nat) (w : W32) : Option Instr :=
  let rd := w.extractLsb' 21 5
  let ra := w.extractLsb' 16 5
  let rb := w.extractLsb' 11 5
  let func := w.extractLsb' 3 8
  let p := w.extractLsb' 0 3
  let imm := w.extractLsb' 0 16
  let off := w.extractLsb' 3 13
  let op := w.extractLsb' 6 5
  let t := w.extractLsb' 3 3
  match (w.extractLsb' 26 6).toNat with
  | 1 => decodeAlu c rd ra rb func p
  | 2 => some (.addi c rd ra imm)
  | 3 => some (.lui c rd ra imm)
  | 4 => some (.andi c rd ra imm)
  | 5 => some (.ori c rd ra imm)
  | 6 => some (.slti c rd ra imm)
  | 8 => some (.beq c rd ra imm)
  | 9 => some (.bne c rd ra imm)
  | 10 => some (.blt c rd ra imm)
  | 11 => some (.bge c rd ra imm)
  | 12 => some (.jal c (w.extractLsb' 0 26))
  | 13 => some (.jr c rd ra rb func p)
  | 14 => some (.endTask c (w.extractLsb' 0 26))
  | 16 => some (.ld c rd ra off p)
  | 17 => some (.ldu c rd ra off p)
  | 18 => some (.st c rd ra off p)
  | 19 => some (.vld c rd ra off p)
  | 20 => some (.vst c rd ra off p)
  | 24 => decodeVop c rd ra rb op t p
  | 25 => some (.vcvt c rd ra (w.extractLsb' 12 4) (w.extractLsb' 8 4) (w.getLsbD 7) (w.getLsbD 6) (w.getLsbD 5) (w.extractLsb' 3 2) p)
  | 26 => decodeLanes c 26 rd ra rb op t p
  | 27 => decodeLanes c 27 rd ra rb op t p
  | 28 => decodeLanes c 28 rd ra rb op t p
  | 32 => some (.mload c (w.getLsbD 25) (w.getLsbD 24) (w.extractLsb' 20 4) (w.getLsbD 19) (w.extractLsb' 14 5) (w.extractLsb' 9 5) (w.extractLsb' 0 9))
  | 33 => some (.mmac c (w.extractLsb' 23 3) (w.getLsbD 22) (w.getLsbD 21) ra (w.extractLsb' 12 4) (w.extractLsb' 0 12))
  | 34 => some (.mstore c (w.extractLsb' 23 3) (w.extractLsb' 19 4) (w.getLsbD 18) (w.getLsbD 17) (w.extractLsb' 12 5) (w.extractLsb' 0 12))
  | 35 => some (.mscale c (w.extractLsb' 23 3) (w.extractLsb' 18 5) (w.extractLsb' 0 18))
  | 40 => some (.send c rd ra rb func p)
  | 41 => some (.recv c rd ra rb func p)
  | 42 => some (.put c rd ra rb func p)
  | 43 => some (.get c rd ra rb func p)
  | 44 => some (.waitmsg c rd ra rb func p)
  | 48 => some (.bar c rd ra rb func p)
  | 49 => some (.fenceop c (w.getLsbD 25) (w.getLsbD 24) (w.getLsbD 23) (w.getLsbD 22) (w.extractLsb' 0 22))
  | 56 => some (.time c rd ra rb func p)
  | 57 => some (.yieldTask c rd ra rb func p)
  | 58 => some (.mfs c rd ra imm)
  | 59 => some (.mts c rd ra imm)
  | _ => none

end Sys2Proof
end

