-- ==== Sys2Proof/Config.lean ====
section
/-! DEFINITION. What the spec leaves free: constants without a body, so that nothing can be proved about their values, and the fixed figures of the architecture that several files use. -/

namespace Sys2Proof.Config

/-- Whether VEXP returns the neighbour above the exact exponential, by element type and input code (R57: at most 1 ulp, one
fixed function). DESIGN CHOICE, log 8, safe. -/
opaque expUp : Nat → Nat → Bool

/-- In a race of R68, whether a matrix instruction sees the old value of a 64-byte beat, by draw number and beat.
DESIGN CHOICE, log 9, safe. -/
opaque raceOld : Nat → Nat → Bool

/-- A byte whose value the spec leaves undefined, by draw number and position (R116, R247, R382). DESIGN CHOICE, log 10, safe (DESIGN CHOICE, log 100). -/
opaque freeByte : Nat → Nat → Byte

/-- A 64-bit word whose value the spec leaves open: a signature, a key exchange share, a digest of content outside the
spec, by draw number. DESIGN CHOICE, log 11, safe. -/
opaque freeWord : Nat → W64

/-- The measurement of a firmware component or fuse block (R359), by index and security version. DESIGN CHOICE, log 11, safe. -/
opaque measurement : Nat → Nat → W64

/-- CRC, cipher and seal tags whose polynomials or keys are outside the model, by content words (R305, R362). DESIGN
CHOICE, log 11, safe. -/
opaque sealTag : List W64 → W64

/-- Result of an integer lane operation whose exact result lies outside the lane (R70, R71 state none), by operation, format, old
vd lane and operand lanes. DESIGN CHOICE, log 19, safe. -/
opaque laneOver : Nat → Nat → Nat → Nat → Nat → Nat

/-- The lane that VMOVS or VPERM reads at an index beyond the lane count (R70 states none), by format and index. DESIGN CHOICE,
log 20, safe. -/
opaque laneOutside : Nat → Nat → Nat

/-- The bits of rd above the lane after VMOVS (R70 states none), by format and lane. DESIGN CHOICE, log 21, safe. -/
opaque moveHigh : Nat → Nat → Nat

/-- Lane 0 after VRMAX or VRMIN with no active lane (R71 states none), by operation and format. DESIGN CHOICE, log 22, safe. -/
opaque emptyReduce : Nat → Nat → Nat

/-- The lanes of a narrower register destination of VCVT beyond the elements converted (R72 states none), by formats, source and
lane. DESIGN CHOICE, log 23, safe. -/
opaque cvtTail : Nat → Nat → Nat → Nat → Nat

/-- Which of its 64 KiB page's rows a stack line lies in, modulo 512, by the line's number in its channel (R142: the address map of rows is not given).
DESIGN CHOICE, log 14, safe. -/
opaque rowIn : Nat → Nat

/-- The bank of a row, by the row's number (R142: the address map of rows is not given). DESIGN CHOICE, log 14, safe. -/
opaque bankOf : Nat → Nat

/-- The first of a row's lines within its page, modulo 512, by the row's number (R143: the address map of rows is not given). DESIGN CHOICE, log 14,
safe. -/
opaque rowLine : Nat → Nat

/-- The row of a line of a channel: one row lies wholly inside one page, whose number is the row's divided by 512 (R142). -/
def rowNum (line : Nat) : Nat := line / 512 * 512 + rowIn line % 512

/-- Bank and row of a line of a channel. -/
def rowOf (line : Nat) : Nat × Nat := (bankOf (rowNum line), rowNum line)

/-- Address within its channel of a row (R142, R143). -/
def rowAt (row : Nat) : Nat := row / 512 * 65536 + rowLine row % 512 * 128

/-- The hash of a line's address that gives its set in the LLM cache (R130: fixed, and not given), by line number. DESIGN CHOICE, log 61, safe. -/
opaque cacheSet : Nat → Nat

/-- Which line of a full set the LLM cache replaces (R130: not architectural), by the line that comes and the lines there. DESIGN CHOICE, log 61, safe. -/
opaque cacheVictim : Nat → List Nat → Nat

/-- Which cached line lies at a 64-byte word of a cache granule (R130 gives no layout), by granule and word. DESIGN CHOICE, log 61, safe. -/
opaque cacheWord : Nat → Nat → Nat

/-- Which entry a full range cache or address translation cache replaces (R161, R164: not architectural), by the key that comes. DESIGN CHOICE, log 157,
safe. -/
opaque cacheEntry : Nat → Nat

/-- What the host answers to a Translation Request (R163, R164), by draw number, and by port, function, PASID and 4 KiB page: the base-2 logarithm of the
pages granted plus one, 0 for no access, and the translated page. DESIGN CHOICE, log 158, safe. -/
opaque hostGrant : Nat → List Nat → Nat × Nat

/-- Which invocation's reservation holds a word of a collective engine's staging bank (R124 gives no layout), by engine and word. DESIGN CHOICE, log
12, safe. -/
opaque stagingWord : Nat → Nat → Nat

/-- The address in host memory of the spill page of a retired page (R179 gives none), by the page's physical address. DESIGN CHOICE, log 159, safe. -/
opaque spillPage : Nat → Nat

/-- The VDID that a root would assign next, by draw number; the root keeps it from those in use (R31 names none). DESIGN CHOICE, log 12,
safe. -/
opaque vdidPick : Nat → Nat

/-- What decides the length of a crash dump beyond its header (R389 lists its sections, not their sizes), by draw number. DESIGN CHOICE,
log 58, safe. -/
opaque dumpLength : Nat → Nat

/-- The place of a journal entry in the peer window (R343 gives none), by VDID and JSEQ. DESIGN CHOICE, log 68, safe. -/
opaque journalPlace : Nat → Nat → Nat

/-- The place of the buffer of an outstanding store Read in the peer window (R343 gives none), by the line it repairs. DESIGN CHOICE, log 68,
safe. -/
opaque storeBuffer : Nat → Nat

/-- Where the median of an even number of values lies between the middle two, counted from the lower one modulo the places there are (R297, R405;
log 52). -/
opaque medianPick : List Int → Nat

/-- How far a TIME instruction's answer lies from the Meridian count: 5 ns less than this modulo 11, by core and count (R29 gives ±5 ns). DESIGN
CHOICE, log 137, safe. -/
opaque timeError : Nat → Nat → Nat

/-- A target of the event controller is idle in its wait for events (R433): its processor runs firmware that the spec does not give. By target and
Meridian time. DESIGN CHOICE, log 119, safe. -/
opaque targetIdle : Nat → Nat → Bool

/-- Cores of the module (R5). -/
def cores : Nat := 1024
/-- Bytes of a core's local memory (R65). -/
def localBytes : Nat := 0x40000
/-- Entries of the matrix queue (R61). -/
def matrixQueue : Nat := 16
/-- Records of the error buffer (R376). -/
def errBuf : Nat := 4096
/-- Records of the flash log (R376). -/
def flashLog : Nat := 65536

end Sys2Proof.Config
end

