-- ==== Sys2Proof/Machine/Codes.lean ====
section
/-! DEFINITION. Check codes: the line CRC and Reed–Solomon code of the stacks (R135–R137), the FEC of the links (R300), the CRC-32C of records (R277, R373) and the CRC-64 of delivery digests (R280). -/

namespace Sys2Proof.Machine

/-- `n` steps of a most-significant-bit-first CRC register of `w` bits. -/
def crcSteps (w poly : Nat) : Nat → Nat → Nat
  | 0, r => r
  | n + 1, r =>
    let r' := (2 * r) % 2 ^ w
    crcSteps w poly n (if bitOf r (w - 1) then r' ^^^ poly else r')

/-- A most-significant-bit-first CRC over bytes. -/
def crcMsb (w poly : Nat) : Nat → List Byte → Nat
  | r, [] => r
  | r, b :: bs => crcMsb w poly (crcSteps w poly 8 (r ^^^ (b.toNat * 2 ^ (w - 8)))) bs

/-- The CRC-16 of a stack line: polynomial 0x1021, initial 0xFFFF, no final inversion (R137). -/
def crc16 (bs : List Byte) : Nat := crcMsb 16 0x1021 0xFFFF bs

/-- The CRC-64 of delivery digests, before its final inversion: the running state over records (R280). -/
def crc64Run (state : BitVec 64) (bs : List Byte) : BitVec 64 :=
  BitVec.ofNat 64 (crcMsb 64 0x42F0E1EBA9EA3693 state.toNat bs)

/-- The DIGEST a running state stands for: final value inverted (R280). -/
def digestOf (state : BitVec 64) : BitVec 64 := ~~~state

/-- `n` steps of a least-significant-bit-first CRC register. -/
def crcStepsLsb (poly : Nat) : Nat → Nat → Nat
  | 0, r => r
  | n + 1, r => crcStepsLsb poly n (if r % 2 = 1 then (r / 2) ^^^ poly else r / 2)

/-- The register of CRC-32C over bytes (R277, R373; the Castagnoli polynomial, reflected). -/
def crc32cRun : Nat → List Byte → Nat
  | r, [] => r
  | r, b :: bs => crc32cRun (crcStepsLsb 0x82F63B78 8 (r ^^^ b.toNat)) bs

/-- CRC-32C (R277, R373). -/
def crc32c (bs : List Byte) : Nat := crc32cRun 0xFFFFFFFF bs ^^^ 0xFFFFFFFF

/-- Multiplication by α = 0x02 in GF(2^8) of R136. -/
def gfTwice (a : Nat) : Nat := if 2 * a ≥ 256 then (2 * a) ^^^ 0x11D else 2 * a

/-- Multiplication in GF(2^8), over `k` bits of the second factor. -/
def gfMulFuel : Nat → Nat → Nat → Nat
  | 0, _, _ => 0
  | k + 1, a, b => (if b % 2 = 1 then a else 0) ^^^ gfMulFuel k (gfTwice a) (b / 2)

/-- Multiplication in GF(2^8) (R136). -/
def gfMul (a b : Nat) : Nat := gfMulFuel 8 a b

/-- α^i (R136). -/
def gfPow : Nat → Nat
  | 0 => 1
  | i + 1 => gfTwice (gfPow i)

/-- The product of a polynomial, highest coefficient first, with (x − r). -/
def polyMulRoot (r : Nat) (p : List Nat) : List Nat :=
  List.zipWith (fun a b => a ^^^ b) (p ++ [0]) (0 :: p.map (gfMul r))

/-- The generator polynomial with `n` roots α^0 to α^(n−1), highest coefficient first (R136, R300). -/
def rsGen : Nat → List Nat
  | 0 => [1]
  | n + 1 => polyMulRoot (gfPow n) (rsGen n)

/-- One information byte shifted into the remainder register. -/
def rsShift (g : List Nat) (reg : List Nat) (b : Nat) : List Nat :=
  let f := (reg.headD 0) ^^^ b
  List.zipWith (fun a c => a ^^^ gfMul f c) (reg.drop 1 ++ [0]) g

/-- The check bytes of an information string under `n` roots (R136, R300). -/
def rsCheck (n : Nat) (info : List Byte) : List Byte :=
  let g := (rsGen n).drop 1
  ((info.foldl (fun r b => rsShift g r b.toNat) (List.replicate n 0)).map (BitVec.ofNat 8 ·))

/-- The syndromes of a received codeword: its values at α^0 to α^(n−1) (R136). -/
def rsSyndromes (n : Nat) (word : List Byte) : List Nat :=
  (List.range n).map (fun i => word.foldl (fun a b => (gfMul a (gfPow i)) ^^^ b.toNat) 0)

/-- The stored image of a stack line (R135–R138): data, metadata, CRC over the line address, data and metadata, and the
check bytes. -/
def storedLine (pa : Nat) (data : List Byte) (md : BitVec 16) : List Byte :=
  let info := data ++ natBytes 2 md.toNat
  let crc := crc16 (natBytes 5 (pa / 128) ++ info)
  let all := info ++ natBytes 2 crc
  all ++ rsCheck 12 all

/-- A flit's frame: the two interleaved codewords' check bytes behind the 256 bytes (R300). -/
def frameOf (flit : List Byte) : List Byte :=
  let half (c : Nat) := (List.range 128).map (fun j => flit.getD (2 * j + c) 0#8)
  let k0 := rsCheck 6 (half 0)
  let k1 := rsCheck 6 (half 1)
  flit ++ (List.range 6).flatMap (fun k => [k0.getD k 0#8, k1.getD k 0#8])

/-- The frame bytes at the given indices fall, per codeword, into at most three errors (R300). -/
def fecCorrects (bad : List Nat) : Bool :=
  (bad.filter (fun i => i % 2 = 0)).length ≤ 3 && (bad.filter (fun i => i % 2 = 1)).length ≤ 3

end Sys2Proof.Machine
end

