-- ==== Sys2Proof/Machine/UnitState.lean ====
section
/-! DEFINITION. The state of the module's shared units: slices, stack channels, LLM granules, clusters, links, the fabric, host ports, translation caches, power and time, counters and trace, the event controller, error reporting, security and the PF's control registers. -/

namespace Sys2Proof.Machine

/-- Slice states and codes (R21, R291). -/
inductive SliceState where
  | free | assigned | releasing | scrubbing | held | retired
  deriving DecidableEq, Repr

/-- One slice, indexed as ATL_SLICE: clusters from 0, channels from 64, links from 448 (R291). -/
structure Slice where
  state : SliceState := .free
  owner : Nat := 0
  pending : Bool := false
  ret : Bool := false
  /-- a compute slice is power-gated (R23) -/
  gated : Bool := false
  /-- HELD for a self-test or margining that is due or running (R145, R148, R394, R444) -/
  testing : Bool := false
  /-- taken FREE by a maintenance request: an assignment that reaches it waits till it is FREE again (R22) -/
  asked : Bool := false
  deriving DecidableEq, Repr

/-- A request waiting at a stack channel (R409–R411). -/
structure ChanReq where
  cls : Nat
  /-- entered over a link whose urgency wire was asserted, and which (R411) -/
  urgent : Option Nat := none
  /-- line slots it still needs: one for each line, two for a line written in part (R133, R410) -/
  lines : Nat
  deriving DecidableEq, Repr

/-- One stack channel (R133–R151, R179, R410–R412). -/
structure Chan where
  trained : Bool := false
  marginFail : Bool := false
  retirePending : Bool := false
  ce : Nat := 0
  ue : Nat := 0
  retired : List Nat := []
  /-- spare rows in use, by bank (R143) -/
  spares : Tab Nat := []
  spareTotal : Nat := 0
  /-- rows with a repair trigger outstanding, as (bank, row) -/
  triggers : List (Nat × Nat) := []
  /-- rows in which a patrol pass corrected an error, with the pass (R142) -/
  patrolSeen : List ((Nat × Nat) × Nat) := []
  /-- page redirect table: retired page, destination page's physical address, or the name of a spill page in host memory (R179) -/
  redirect : List (Nat × Nat) := []
  lines : Tab W64 := []
  /-- recent uncorrectable reads: time and row (R383) -/
  uncor : List (Nat × Nat × Nat) := []
  /-- line tokens by class, in parts of `tokenUnit`, and requests waiting, in arrival order -/
  tokens : Tab Nat := []
  reqs : List ChanReq := []
  /-- class last served in tiers 2 and 3, and whether the last slot went to an urgent request -/
  lastTok : Nat := 7
  lastAny : Nat := 7
  lastUrgent : Bool := false
  /-- derated capacity in tenths of GB/s (R133, R412) -/
  capacity : Nat := 840
  /-- issues in at most one slot of two (R412), and the parity of the slot -/
  halfRate : Bool := false
  slot : Bool := false
  /-- stalls of R134: recalibrations and bank refreshes met -/
  recals : Nat := 0
  refreshes : Nat := 0
  /-- margining runs (R148) -/
  margining : Bool := false
  deriving DecidableEq, Repr

/-- A stack line that the LLM cache holds (R129, R130): what the stack itself holds of it, its 128 bytes and metadata, and whether the cached copy has
been written since. The copy's own bytes stand in State.mem, which is what every access but those of R131 sees. -/
structure CacheLine where
  dirty : Bool
  stack : List Byte
  stackMeta : BitVec 16
  deriving DecidableEq, Repr

/-- A write on port 1 of a cluster's bank that met COLLIDE and is to be retried by the unit that sent it, other than a core (R109, R122): its master,
partition, address and bytes, the words (address divided by 64) still to be written, and the NoC cycles of the backoff. -/
structure Retry where
  m : Master
  n : Nat
  va : Nat
  data : List Byte
  todo : List Nat
  backoff : Nat
  deriving DecidableEq, Repr

/-- A target slot that the Surveyor moves (R178): its partition, range BASE and slot, the destination target, the 64 KiB steps copied, and the command
that waits for it: function and SEQ on Q5. -/
structure Move where
  n : Nat
  base : Nat
  slot : Nat
  dest : Nat
  steps : Nat
  cmd : Option (Nat × Nat)
  deriving DecidableEq, Repr

/-- One LLM granule (R128, R153). -/
structure Granule where
  valid : Bool := false
  cache : Bool := false
  part : Nat := 0
  deriving DecidableEq, Repr

/-- One cluster's own state beside its cores (R29, R94, R123, R400–R402, R408, R416). -/
structure Cluster where
  conflict : Tab Nat := []
  /-- collisions in a row of a master's write at a word, by word × 2048 + the master's code (R122) -/
  hits : Tab Nat := []
  clkCur : Nat := 0x708
  clkTarget : Nat := 0x708
  /-- the clock to which a power-gated cluster wakes (R413) -/
  clkNext : Option Nat := none
  actW : Nat := 0
  limit : Nat := 0x40
  rate : Nat := 0x40
  /-- the clock is stretched by a droop (R402) -/
  stretched : Bool := false
  /-- the issue rate is held down by a droop: the rate to which it is restored (R402) -/
  drooping : Option Nat := none
  synced : Bool := true
  counters : Tab W64 := []
  /-- the router's copy of the core map: a task's place by its launch × 2^32 + its index (R94) -/
  coreMap : Tab Nat := []
  deriving DecidableEq, Repr

/-- One Pergil link (R293–R307, R315–R320). -/
structure Link where
  state : Nat := 0
  rev : Nat := 0
  width : Nat := 0
  reason : Nat := 0
  bad : Nat := 0
  retrain : Bool := false
  disable : Bool := false
  spareOk : Bool := false
  /-- physical lane that carries each logical data lane, and the physical lane that is the spare now (R300, R315) -/
  laneMap : List Nat := List.range 16
  spareLane : Nat := 16
  /-- next data lane to recalibrate -/
  recal : Nat := 0
  peerValid : Bool := false
  peerIdValid : Bool := false
  peerLink : Nat := 0
  peerId : Nat := 0
  rtt : Nat := 0
  corr : Nat := 0
  tagfail : Nat := 0
  uncorr : Nat := 0
  replays : Nat := 0
  swaps : Nat := 0
  urg : Bool := false
  /-- receive flits occupied, by virtual channel -/
  occ : Tab Nat := []
  /-- credits held, by virtual channel -/
  credits : Tab Nat := []
  /-- bytes received and not yet taken, by virtual channel, and how many bytes of their first flit have been taken -/
  rxbuf : Tab (List Byte) := []
  rxOff : Tab Nat := []
  /-- last LSEQ accepted, next LSEQ to send, replay buffer, flits to send again, NAK to send and when the last was set -/
  lastRx : Nat := 0
  nextTx : Nat := 1
  replay : List Flit := []
  resend : List Flit := []
  nak : Bool := false
  nakAt : Option Nat := none
  /-- ACK of a NAK received and not yet answered by a replay -/
  nakFrom : Option Nat := none
  /-- failures in a row of the LSEQ awaited (R301) -/
  failRun : Nat := 0
  /-- credits to return, by virtual channel -/
  giveBack : Tab Nat := []
  /-- frame counters, key epochs, frames since the receive epoch changed; the previous receive key is still held -/
  txFrames : Nat := 0
  rxFrames : Nat := 0
  txEpoch : Nat := 0
  rxEpoch : Nat := 0
  rxSince : Nat := 0
  oldKey : Bool := false
  keyed : Bool := false
  /-- times of recent tag failures, and of the last refusal for reason 8 (R307, R297) -/
  tagTimes : List Nat := []
  lastR8 : Option Nat := none
  /-- packets taken for this link and not yet sent whole, by virtual channel; bytes of the first already sent; packets sent whole that
  are not yet acknowledged, by the LSEQ of their last flit (R298, R317) -/
  egress : Tab (List Packet) := []
  cut : Tab Nat := []
  flying : List (Nat × Packet) := []
  /-- LANE flits to send (R315), and frame slots since VC3 was last served (R108) -/
  lanes : List (List Byte) := []
  since3 : Nat := 0
  /-- flits put on the wire, newest last -/
  wire : List Flit := []
  deriving DecidableEq, Repr

/-- The module's place in the fabric (R310–R318, R320, R405). -/
structure Fabric where
  rtGroup : Tab W32 := []
  rtMember : Tab W32 := []
  modidReg : Nat := 0
  claiming : Bool := false
  conflict : Bool := false
  /-- an ID held through a warm reset is to be claimed again (R313, R385) -/
  reclaim : Bool := false
  rootValid : Bool := false
  rootId : Nat := 0
  /-- LNK_EVENT bits: 0 LINK_CHANGE, 1 ID_CONFLICT, 2 ROUTE_LOOP, 3 TAG_FAIL, 4 REFUSED -/
  event : Nat := 0
  allowOpen : Bool := false
  /-- ABORT serials acted on, as (origin, count), and this module's own count -/
  serials : List (Nat × Nat) := []
  abortCount : Nat := 0
  /-- live VDIDs known to this module as root, and whether they have been collected since it took the role -/
  vdids : List Nat := []
  collected : Bool := false
  /-- modules whose VD_CREATE waits for the collection (R314) -/
  asks : List Nat := []
  /-- VDIDs live twice after parts joined (R457) -/
  doubled : List Nat := []
  /-- the link over which the packet now being taken arrived (R411) -/
  via : Option Nat := none
  /-- packets this module has sent, oldest first, that no link has taken yet -/
  out : List Packet := []
  deriving DecidableEq, Repr

/-- A posted write to host memory (R212, R223, R329, R455): port, function (a VF's number, 64 the PF, 65 the PF by port B), address, bytes. -/
structure HostWrite where
  port : Nat := 0
  func : Nat
  addr : Nat
  data : List Byte
  /-- the T bit of the function's selective IDE stream (R335) -/
  tee : Bool := false
  /-- the PASID it carries, the address is one that the host has translated, and its data is poisoned (R126, R163, R455) -/
  pasid : Option Nat := none
  translated : Bool := false
  bad : Bool := false
  /-- the address as the range gives it, before the host's translation: a write that is replayed on another port goes out with it (R163, R330) -/
  raw : Option Nat := none
  deriving DecidableEq, Repr

/-- A read request to host memory (R455): port, function, address, length, PASID, and whether the host has translated the address. -/
structure HostRead where
  port : Nat
  func : Nat
  addr : Nat
  len : Nat
  pasid : Option Nat
  translated : Bool
  deriving DecidableEq, Repr

/-- One host port (R321–R333). -/
structure Port where
  link : Nat := 0
  gen : Nat := 0
  width : Nat := 0
  ideLink : Bool := false
  flit : Bool := false
  perst : Bool := false
  failovers : Nat := 0
  /-- packet fetches of the round under way, by queue number × 128 + function (R219) -/
  fetchRound : Tab Nat := []
  /-- Bus Master Enable, Memory Space Enable and MSI-X enable of the functions (R328) -/
  enabled : Bool := false
  /-- functions on which the host has enabled ATS, by R185's number: one more than the page request groups that it allows the function (R163, R166) -/
  ats : Tab Nat := []
  /-- the write log, oldest first, and how many of its writes precede the outstanding flush read (R329) -/
  log : List HostWrite := []
  flush : Option Nat := none
  /-- control writes that wait while the log is full, oldest first (R329) -/
  waiting : List HostWrite := []
  deriving DecidableEq, Repr

/-- An entry of the address translation cache (R164): its tag, the span granted in 4 KiB pages, and the translated page. A transfer without PASID has
the tag `noPasid`. -/
structure AtcEntry where
  port : Nat
  fn : Nat
  pasid : Nat
  page : Nat
  pages : Nat
  to_ : Nat
  deriving DecidableEq, Repr

/-- An entry of the fault queue, or a fault waiting for one (R166–R169). A holder is a transfer: the code of its unit, with the transfer's number in a
core and the command's SEQ in an engine. -/
structure FaultEntry where
  port : Nat
  fn : Nat
  pasid : Nat
  page : Nat
  holders : List (Nat × Nat)
  /-- its Page Request Group has been sent -/
  sent : Bool := false
  deriving DecidableEq, Repr

/-- A page request as it is sent (R166): port, function, PASID, 4 KiB page, and the Last flag. -/
structure PageReq where
  port : Nat
  fn : Nat
  pasid : Nat
  page : Nat
  last : Bool
  deriving DecidableEq, Repr

/-- An invalidation whose entries are gone and whose completion awaits the transfers that hold their translated addresses: cores' transfers by
issuing core and number (R165). `go` marks the one that SUR_ATC_INV asked for (R185). -/
structure Invalidation where
  port : Nat
  page : Nat
  go : Bool
  waits : List (Nat × Nat)
  deriving DecidableEq, Repr

/-- Translation units of the SUR block (R161, R163–R169, R178, R184, R185). -/
structure Sur where
  atc : List AtcEntry := []
  faultQ : List FaultEntry := []
  waiting : List FaultEntry := []
  overflow : Bool := false
  /-- page requests sent, oldest first, and invalidations under way -/
  requests : List PageReq := []
  inv : List Invalidation := []
  /-- the compute dies' range caches: the partition and the entry (R161) -/
  rcache : Tab (List (Nat × Range)) := []
  moves : List Move := []
  invPort : Bool := false
  invAll : Bool := false
  invFn : Nat := 0
  deriving DecidableEq, Repr

/-- Power, clocks and time (R397–R408, R414, R437–R443) (DESIGN CHOICE, log 90). -/
structure Power where
  pldmW : Nat := 0x0FA0
  driverW : Nat := 0x0FA0
  extW : Nat := 0x05DC
  throttleLow : Bool := false
  junction : Nat := 0
  /-- hottest reading of each stack -/
  stackTs : Tab Nat := []
  inlet : Nat := 0
  coldPlate : Nat := 0
  vin : Nat := 0
  iin : Nat := 0
  pin : Nat := 0
  /-- throttle reasons counted now, as bits (R403), and their durations in ns -/
  reasons : Nat := 0
  durations : Tab Nat := []
  /-- the INPUT_VOLTAGE cap is in force -/
  lowVin : Bool := false
  weights : List Nat := []
  /-- main conversion runs; a thermal shutdown awaits PWR_EN low then high -/
  converting : Bool := false
  pwrEn : Bool := false
  thermal : Bool := false
  /-- PWR_EN has risen after a thermal shutdown, and the cold plate is still too warm to restart (R438) -/
  cooling : Bool := false
  modRstLow : Bool := false
  /-- the Meridian count and its fraction in units of 2^−32 ns, the slew in units of 2^−32 ns per ns, half rate -/
  meridian : Nat := 0
  frac : Nat := 0
  slew : Int := 0
  halfRate : Bool := false
  aligned : Bool := false
  stepped : Bool := false
  offset : Int := 0
  samples : List Int := []
  everAligned : Bool := false
  /-- last 100 ms window's coarse readings (R372): power in W, current in 10 mA -/
  coarsePin : Nat := 0
  coarseIin : Nat := 0
  /-- readings met in the window under way: sums and counts of power and of current -/
  pinSum : Nat := 0
  pinCount : Nat := 0
  iinSum : Nat := 0
  iinCount : Nat := 0
  /-- counters as they stood at the last window's end: the module's; the clusters' sets and conflict counters; the channels' lines -/
  coarseCnt : Tab W64 := []
  coarseClu : Tab (Tab W64) := []
  coarseConf : Tab (Tab Nat) := []
  coarseLines : Tab (Tab W64) := []
  deriving DecidableEq, Repr

/-- A trace record (R420). -/
structure TraceRec where
  typ : Nat
  pvalid : Bool
  part : Nat
  source : Nat
  time : Nat
  data : List W64
  deriving DecidableEq, Repr

/-- One trace unit (R419–R428). -/
structure Trace where
  ctl : Nat := 0
  types : W64 := 0
  parts : W64 := 0
  ring : Nat := 0
  log2 : Nat := 0
  pidx : Nat := 0
  cidx : Nat := 0
  trig : Nat := 0
  /-- 0 OFF, 1 RUN, 2 POST, 3 STOPPED -/
  state : Nat := 0
  staged : List TraceRec := []
  dropped : Nat := 0
  trigpos : Nat := 0
  /-- records dropped since the last record written, with the times of the first and the last -/
  gap : Nat := 0
  gapFirst : Nat := 0
  gapLast : Nat := 0
  postLeft : Nat := 0
  deriving DecidableEq, Repr

/-- One target of the event controller and its private sources (R429–R434). -/
structure EvcTarget where
  en : Nat := 0
  prio : Nat := 0
  soft : Nat := 0
  level : Nat := 0
  inService : Nat := 0
  modUs : Nat := 0
  modCount : Nat := 1
  line : Bool := false
  claim : Nat := 0
  deriving DecidableEq, Repr

/-- One shared source of the event controller (R429–R432); `svcTarget` is the target that claimed it. -/
structure EvcShared where
  en : Bool := false
  secure : Bool := false
  target : Nat := 0
  prio : Nat := 0
  soft : Bool := false
  level : Bool := false
  inService : Bool := false
  svcTarget : Nat := 0
  deriving DecidableEq, Repr

/-- An error record (R373). -/
structure ErrRec where
  cls : Nat
  severity : Nat
  code : Nat
  status : Nat
  rseq : Nat
  time : Nat
  modId : Nat
  ctx : Nat
  vdid : Nat
  utype : Nat
  uindex : Nat
  part : Option Nat
  cmd : Option (Nat × Nat)
  /-- DETAIL bytes 32–55 as three words -/
  detail : List W64
  count : Nat
  deriving DecidableEq, Repr

/-- Error reporting, hangs and the crash dump (R376–R380, R389, R390, R396). -/
structure Err where
  buf : Tab (Option ErrRec) := []
  ringBase : Nat := 0
  ringLog2 : Nat := 0
  pidx : Nat := 0
  cidx : Nat := 0
  /-- RSEQ of the newest record that the ring path has dealt with -/
  ringRseq : Nat := 0
  /-- TIME of the first record dropped since the last that entered the ring (R376) -/
  dropTime : Nat := 0
  gap : Bool := false
  wrap : Bool := false
  cidxLog : Bool := false
  /-- open fold windows: the first event and the number joined -/
  folds : List ErrRec := []
  hangPart : Nat := 0
  declared : Nat := 0
  sweepUs : Nat := 0
  /-- the waits of the previous sweep, by VDID (R380) -/
  prevSweep : Tab (List WaitEdge) := []
  /-- the module has failed and its crash dump and warm reset are due: the REASON of R396 -/
  failing : Option Nat := none
  dumpValid : Bool := false
  dumpReason : Nat := 0
  dumpBytes : Nat := 0
  dumpDest : Nat := 0
  /-- repairs from backing in progress: lines by address, and their attempts (R392, R393) -/
  repairs : Tab Nat := []
  deriving DecidableEq, Repr

/-- A Legend entry (R348). -/
structure Legend where
  valid : Bool := false
  world : Bool := false
  lock : Bool := false
  owner : Nat := 0
  base : Nat := 0
  limit : Nat := 0
  rights : Nat := 0
  deriving DecidableEq, Repr

/-- An SPDM session: 0–3 on port A, 4–7 on port B, 8–9 over MCTP (R358). -/
structure Session where
  /-- 0 closed, 1 version agreed, 2 capabilities, 3 algorithms, 4 key exchange, 5 established -/
  state : Nat := 0
  /-- key generation of the session -/
  keyGen : Nat := 0
  deriving DecidableEq, Repr

/-- A firmware slot of the flash (R355, R449, R450). -/
structure FwSlot where
  svn : Nat := 0
  /-- the image passes the checks of R355 -/
  good : Bool := true
  deriving DecidableEq, Repr

/-- Fuses and flash: what survives every reset (R352, R356, R376, R385, R450) (DESIGN CHOICE, log 6) (DESIGN CHOICE, log 7). -/
structure Nonvol where
  /-- lifecycle code of R352 -/
  lifecycle : Nat := 2
  svnFused : Nat := 0
  a3Count : Nat := 0
  rseq : Nat := 0
  bootCount : Nat := 0
  slotA : FwSlot := {}
  slotB : FwSlot := { svn := 0, good := false }
  /-- slot to boot next, true for B -/
  bootB : Bool := false
  /-- the error log, newest last, and the records ever written to it (R376) -/
  log : List ErrRec := []
  logged : Nat := 0
  retiredSlices : List Nat := []
  deriving DecidableEq, Repr

/-- Security state and the SEC block (R346–R372). -/
structure Sec where
  quarantine : Bool := false
  zeroised : Bool := false
  slot : Bool := false
  fallback : Bool := false
  svnRunning : Nat := 0
  lastSource : Nat := 0
  lastLevel : Nat := 0
  a1 : Nat := 0
  a2 : Nat := 0
  mbxStatus : Nat := 0
  mbxGo : Bool := false
  mbxOp : Nat := 0
  mbxArg : Tab W64 := []
  legend : Tab Legend := []
  sessions : Tab Session := []
  /-- processors whose debug is open under a grant (R353) -/
  debug : List Nat := []
  /-- alarms latched in the standby domain (R443) -/
  latched : List Nat := []
  /-- Cartouche permits link training (R306, R369) -/
  linksPermitted : Bool := true
  aliasHeld : Bool := false
  deviceId : Bool := false
  /-- keys held as a journal partner for devices with no partition here: VDID, newest, older -/
  partnerKeys : List (Nat × Nat × Nat) := []
  /-- ALARM_N is asserted (R439) -/
  alarmN : Bool := false
  updating : Bool := false
  deriving DecidableEq, Repr

/-- A mailbox of a VF on one port (R325, R326). -/
structure Mbx where
  send : Bool := false
  reply : Bool := false
  len : Nat := 0
  req : Tab Byte := []
  rep : Tab Byte := []
  deriving DecidableEq, Repr

/-- The GLB block's own registers (R33–R34, R326, R337, R344, R451). -/
structure Glb where
  idValid : Bool := false
  moduleId : Nat := 0
  ready : Bool := false
  cold : Bool := true
  stage : Nat := 0
  stackBits : Nat := 0
  ready10 : Nat := 0
  /-- Meridian time of the reference of the bring-up under way (R444, R446) -/
  bootRef : Nat := 0
  /-- the stacks whose training has ended in this bring-up, as bits, and those tried once without success -/
  tried : Nat := 0
  failedOnce : Nat := 0
  pend : Tab W64 := []
  mbx : Tab Mbx := []
  migStatus : Nat := 0
  migGo : Bool := false
  /-- the operation under GO has begun and has not completed -/
  migBusy : Bool := false
  migOp : Nat := 0
  migPart : Nat := 0
  migImage : Nat := 0
  migLen : Nat := 0
  /-- migration images written to host memory, by bus address (R338) -/
  images : List (Nat × MigImage) := []
  store : Tab W64 := []
  /-- Write commands submitted to each store, and completions read (R344) -/
  storeTail : Tab Nat := []
  storeHead : Tab Nat := []
  deriving DecidableEq, Repr

/-- The CQ block's PF registers (R253, R254). -/
structure Cq where
  go : Bool := false
  status : Nat := 0
  func : Nat := 0
  queue : Nat := 0
  op : Nat := 0
  ctxArg : Nat := 0
  unreported : Nat := 0
  aborted : Nat := 0
  /-- CQ_EVENT bits: 0 LOST, 1 DOORBELL_LOG, 2 FENCE_LOG -/
  event : Nat := 0
  lostMask : Nat := 0
  qdesc : Tab W64 := []
  /-- a context destruction that waits for modules being reset (R249) -/
  waitReset : List Nat := []
  deriving DecidableEq, Repr

/-- The ATL block's registers and the composition in progress (R256–R264, R288–R290). -/
structure Atl where
  go : Bool := false
  status : Nat := 0
  op : Nat := 0
  desc : Nat := 0
  vdid : Nat := 0
  local_ : Nat := 0
  reason : Nat := 0
  entry : Nat := 0xFFFF
  /-- ATL_EVENT bits: 0 EDITION, 1 SCALED, 2 RECONSTRUCT, 3 JOURNAL_FULL -/
  event : Nat := 0
  /-- entries of journals mirrored here for other modules' partitions (R275) -/
  mirror : List JournalItem := []
  /-- a creation or growth that waits for RESERVE answers or for its VDID: the descriptor's words and the modules still to answer (R259) -/
  creating : Option (List W64 × List Nat) := none
  /-- members whose leaving slices are not clear yet in a shrink, with the VDID (R262) -/
  clearing : List (Nat × Nat) := []
  /-- the VDID that the Atlas root has given to the creation, 0 before -/
  given : Nat := 0
  /-- reservations made here: the module that asked, slices, granule counts (R259) -/
  reserved : List (Nat × List Nat × List Nat) := []
  /-- RESERVE requests that wait behind a maintenance request (R22): the module that asked, the VDID, slices, granule counts -/
  waiting : List (Nat × Nat × List Nat × List Nat) := []
  /-- a composition operation that ends when the given edition of a virtual device is settled -/
  settling : Option (Nat × Nat) := none
  /-- a release under way: VDID and the modules that have not reported their slices FREE (R263) -/
  releasing : Option (Nat × List Nat) := none
  /-- the partition under release lost its VDID to a migration's destination: the VDID stays live (R339) -/
  keepVdid : Bool := false
  deriving DecidableEq, Repr

/-- A latch or held half of a 64-bit register, kept per BAR and function (R9). -/
structure HalfReg where
  /-- offset of the 64-bit register -/
  offset : Nat
  latched : Option Nat
  heldLow : Option Nat
  deriving DecidableEq, Repr

/-- What the module has answered to a read access, newest last (R7, R10). -/
inductive ReadOut where
  /-- completed with Unsupported Request -/
  | ur
  | value (width : Nat) (v : W64)
  | completerAbort
  deriving DecidableEq, Repr

/-- Answers on the management plane and to attestation (R334, R358, R359): a request code and the words of the answer. -/
structure Answer where
  req : Nat
  ok : Bool
  words : List W64
  deriving DecidableEq, Repr

end Sys2Proof.Machine
end

