-- ==== Sys2Proof/Machine/State.lean ====
section
/-! DEFINITION. The state of one module as plain data, its value at reset, and the reasons a step can stop. -/

namespace Sys2Proof.Machine

/-- Reasons a step stops with a fault. No command of this block has one: every error the spec describes is a record, a
status, an alarm or a context state, which are effects on State. The single constructor names that. -/
inductive Fault where
  /-- raised by nothing; safe -/
  | none
  deriving DecidableEq, Repr

/-- Reasons a step is refused. -/
inductive Refusal where
  /-- raised by an arm of `exec` whose command has no meaning yet; safe -/
  | notModelled (mnemonic : String)
  deriving DecidableEq, Repr

/-- One Limaris 9600 module. -/
structure State where
  /-- commands waiting, first in first out -/
  pending : List Instr := []
  /-- physical memory by module physical address (R117): stacks, LLM scratchpad, cluster memory -/
  mem : Tab Byte := []
  /-- poisoned 64-byte words, by word number, in cluster memory and LLM (R126) -/
  poison : Tab Bool := []
  /-- line metadata by line number (R138) -/
  lmeta : Tab (BitVec 16) := []
  /-- stack lines that the LLM cache holds, by line number (R129, R130) -/
  cache : Tab (Option CacheLine) := []
  cores : Tab Core := []
  clusters : Tab Cluster := []
  chans : Tab Chan := []
  granules : Tab Granule := []
  slices : Tab Slice := []
  parts : Tab Part := []
  links : Tab Link := []
  ports : Tab Port := []
  fab : Fabric := {}
  sur : Sur := {}
  pwr : Power := {}
  trc : Tab Trace := []
  /-- module counters by index (R415, R416) -/
  modCnt : Tab W64 := []
  evc : Tab EvcTarget := []
  evs : Tab EvcShared := []
  err : Err := {}
  sec : Sec := {}
  nv : Nonvol := {}
  glb : Glb := {}
  cq : Cq := {}
  atl : Atl := {}
  /-- MEM_PATROL's period in hours (R150) -/
  patrolH : Nat := 8
  half : Tab (Option HalfReg) := []
  /-- posted writes of bulk data and of records to host memory, oldest first (R329) -/
  hostOut : List HostWrite := []
  /-- reads sent to host memory, oldest first (R455) -/
  hostIn : List HostRead := []
  /-- writes of engines and outside masters that back off from a COLLIDE, oldest first (R109) -/
  retries : List Retry := []
  /-- MSI-X messages raised: port, function (64 the PF), table entry, oldest first (R321) -/
  msix : List (Nat × Nat × Nat) := []
  /-- answers given to register reads, oldest first (R9) -/
  reads : List ReadOut := []
  /-- answers given to requests of the management and security protocols, oldest first (R358, R448) -/
  answers : List Answer := []
  /-- responses sent to requesters: unit code, tag, response, data (R109) -/
  resp : List (Nat × Nat × Resp × List Byte) := []
  /-- the model's own counter of free values drawn; no state of the hardware -/
  draws : Nat := 0
  deriving DecidableEq, Repr

/-- The module right after a cold reset: every register at the value its table states, no slice assigned, no task
bound, no stack trained, nothing listed in memory, the queue empty (DESIGN CHOICE, log 121). -/
def State.reset : State := {}

end Sys2Proof.Machine
end

