-- ==== Sys2Proof/Machine/Ops.lean ====
section
/-! DEFINITION. The shared operations of the module: reading and changing one entry of State, error records, posted writes and interrupts, fences, completing commands, editions. -/

namespace Sys2Proof.Machine

/-- Status codes of completions (R232). -/
abbrev sOk : Nat := 0x00
abbrev sAccepted : Nat := 0x01
abbrev sAborted : Nat := 0x10
abbrev sContextLost : Nat := 0x11
abbrev sTimeout : Nat := 0x12
abbrev sFaultXlate : Nat := 0x13
abbrev sRefused : Nat := 0x14
abbrev sBadPacket : Nat := 0x15
abbrev sDiverged : Nat := 0x16
abbrev sPoisoned : Nat := 0x17
abbrev sUnsupported : Nat := 0x18

/-- The outcome of every meaning of this block. A command whose step cannot occur in a state leaves it as it is (DESIGN CHOICE, log 2). -/
abbrev Out := Host.Outcome State Fault Refusal

-- reading and changing one entry

def coreOf (s : State) (c : Nat) : Core := tabGet {} s.cores c
def modCore (s : State) (c : Nat) (f : Core → Core) : State := { s with cores := tabMod {} s.cores c f }
def clusterOf (s : State) (c : Nat) : Cluster := tabGet {} s.clusters c
def modCluster (s : State) (c : Nat) (f : Cluster → Cluster) : State := { s with clusters := tabMod {} s.clusters c f }
def chanOf (s : State) (g : Nat) : Chan := tabGet {} s.chans g
def modChan (s : State) (g : Nat) (f : Chan → Chan) : State := { s with chans := tabMod {} s.chans g f }
def granuleOf (s : State) (i : Nat) : Granule := tabGet {} s.granules i
def modGranule (s : State) (i : Nat) (f : Granule → Granule) : State := { s with granules := tabMod {} s.granules i f }
def sliceOf (s : State) (k : Nat) : Slice := tabGet {} s.slices k
def partOf (s : State) (n : Nat) : Part := tabGet {} s.parts n
def modPart (s : State) (n : Nat) (f : Part → Part) : State := { s with parts := tabMod {} s.parts n f }
def linkOf (s : State) (k : Nat) : Link := tabGet {} s.links k
def modLink (s : State) (k : Nat) (f : Link → Link) : State := { s with links := tabMod {} s.links k f }
def portOf (s : State) (p : Nat) : Port := tabGet {} s.ports p
def modPort (s : State) (p : Nat) (f : Port → Port) : State := { s with ports := tabMod {} s.ports p f }
def traceOf (s : State) (t : Nat) : Trace := tabGet {} s.trc t
def modTrace (s : State) (t : Nat) (f : Trace → Trace) : State := { s with trc := tabMod {} s.trc t f }

def queueOf (s : State) (f q : Nat) : Queue := tabGet {} (partOf s f).queues q
def modQueue (s : State) (f q : Nat) (g : Queue → Queue) : State :=
  modPart s f (fun p => { p with queues := tabMod {} p.queues q g })
def modVd (s : State) (n : Nat) (g : Vd → Vd) : State := modPart s n (fun p => { p with vd := g p.vd })
def modCtx (s : State) (n : Nat) (g : Ctx → Ctx) : State := modPart s n (fun p => { p with ctx := g p.ctx })
def modVf (s : State) (n : Nat) (g : Vf → Vf) : State := modPart s n (fun p => { p with vf := g p.vf })
def modStr (s : State) (n : Nat) (g : Str → Str) : State := modPart s n (fun p => { p with str := g p.str })
def streamOf (s : State) (n x : Nat) : Stream := tabGet {} (partOf s n).str.streams x
def modStream (s : State) (n x : Nat) (g : Stream → Stream) : State :=
  modStr s n (fun t => { t with streams := tabMod {} t.streams x g })
def ringOf (s : State) (n r : Nat) : Ring := tabGet {} (partOf s n).str.rings r
def modRing (s : State) (n r : Nat) (g : Ring → Ring) : State :=
  modStr s n (fun t => { t with rings := tabMod {} t.rings r g })
def collOf (s : State) (n h : Nat) : Coll := tabGet {} (partOf s n).colls h
def modColl (s : State) (n h : Nat) (g : Coll → Coll) : State :=
  modPart s n (fun p => { p with colls := tabMod {} p.colls h g })
def launchOf (s : State) (n l : Nat) : Launch := tabGet {} (partOf s n).launches l
def modLaunch (s : State) (n l : Nat) (g : Launch → Launch) : State :=
  modPart s n (fun p => { p with launches := tabMod {} p.launches l g })

/-- The live partitions of the module, by local number (R31). -/
def livePartsOf (s : State) : List Nat := tabKeys (fun n p => decide (n < 64) && p.vd.used) s.parts

/-- The local number of a virtual device's partition on this module. -/
def partOfVdid (s : State) (vdid : Nat) : Option Nat :=
  let held (moved : Bool) : List Nat := tabKeys (fun n p => decide (n < 64) && p.vd.used && p.vd.vdid == vdid && p.vf.moved == moved) s.parts
  -- a partition whose VDID has moved to another (R339) comes after the one that has it
  (held false ++ held true).head?

/-- The current context state code (R241). -/
def ctxCode : CtxState → Nat
  | .none => 0 | .active => 1 | .lost => 2 | .recovering => 3 | .frozen => 4 | .destroying => 5

/-- Slice state code (R291). -/
def sliceCode : SliceState → Nat
  | .free => 0 | .assigned => 1 | .releasing => 2 | .scrubbing => 3 | .held => 4 | .retired => 5

/-- The moves between slice states of R21 and R22. A slice passes from one owner to another only through RELEASING, SCRUBBING and
FREE. -/
def sliceMoveOk : SliceState → SliceState → Bool
  | .free, .assigned => true
  | .free, .held => true
  | .assigned, .releasing => true
  | .assigned, .held => true
  | .releasing, .scrubbing => true
  | .scrubbing, .free => true
  | .held, .scrubbing => true
  | .held, .retired => true
  | .free, .scrubbing => true
  | a, b => a == b

/-- The one operation that moves a slice between states: a move that R21 and R22 do not list changes nothing. Only a FREE or HELD slice is
power-gated (R23). -/
def moveSlice (s : State) (k : Nat) (to_ : SliceState) (f : Slice → Slice) : State :=
  if sliceMoveOk (sliceOf s k).state to_ then
    { s with slices := tabMod {} s.slices k (fun x => { f x with state := to_, gated := (f x).gated && (to_ == .free || to_ == .held) }) }
  else s

/-- Marks of a slice changed, its state kept. -/
def markSlice (s : State) (k : Nat) (f : Slice → Slice) : State :=
  { s with slices := tabMod {} s.slices k (fun x => { f x with state := x.state }) }

/-- The slices of a partition that satisfy a test. -/
def slicesOf (s : State) (n : Nat) (p : Nat → Bool) : List Nat :=
  tabKeys (fun k x => p k && (x.state == .assigned || x.state == .releasing) && x.owner == n) s.slices
/-- The assigned slices of a partition that satisfy a test. -/
def assignedOf (s : State) (n : Nat) (p : Nat → Bool) : List Nat :=
  tabKeys (fun k x => p k && x.state == .assigned && x.owner == n) s.slices
def isCompute (k : Nat) : Bool := decide (k < 64)
def isMemory (k : Nat) : Bool := decide (64 ≤ k) && decide (k < 448)
def isLink (k : Nat) : Bool := decide (448 ≤ k) && decide (k < 472)

/-- Every compute slice of a partition leaves: the partition goes entirely. -/
def goesEntirely (s : State) (n : Nat) : Bool := (assignedOf s n isCompute).all (fun k => (partOf s n).vd.leaving.contains k)

-- output

/-- The port that carries a function's transfers: the VF's active port (R455); for the PF port A, and port B as function 65. -/
def portFor (s : State) (f : Nat) : Nat := if f < 64 then b2n (partOf s f).vf.active else if f = 65 then 1 else 0

/-- A posted write of a function; while its TDI is in RUN it carries the T bit (R335). -/
def hostWrite (s : State) (f addr : Nat) (data : List Byte) : HostWrite :=
  { port := portFor s f, func := f, addr, data, tee := decide (f < 64) && (partOf s f).vf.tdi == .run }

/-- A posted write of bulk data to host memory. -/
def hostBulk (s : State) (f addr : Nat) (data : List Byte) : State :=
  { s with hostOut := s.hostOut ++ [hostWrite s f addr data] }

/-- Bytes of the writes that a log keeps; the log holds 256 KiB (R329). -/
def logBytes (l : List HostWrite) : Nat := (l.map (fun w => w.data.length)).sum
def logSize : Nat := 0x40000

/-- A control write: posted and kept in the port's write log until a flush; it waits while the log is full (R329). One of a function whose port is down stands
in both, to be posted again (R331; DESIGN CHOICE, log 170). -/
def hostPost (s : State) (f : Nat) (w : HostWrite) : State :=
  let i := portFor s f
  let p := portOf s i
  if p.waiting.isEmpty && logBytes p.log + w.data.length ≤ logSize then
    modPort { s with hostOut := s.hostOut ++ [w] } i (fun p => { p with log := p.log ++ [w] })
  else modPort s i (fun p => { p with waiting := p.waiting ++ [w] })
/-- One to an untranslated host address. -/
def hostControl (s : State) (f addr : Nat) (data : List Byte) : State := hostPost s f (hostWrite s f addr data)

/-- An MSI-X message of a function (R223, R325). -/
def raiseMsix (s : State) (f entry : Nat) : State := { s with msix := s.msix ++ [(portFor s f, f, entry)] }

/-- A packet handed to the fabric (R308). -/
def sendPacket (s : State) (p : Packet) : State := { s with fab := { s.fab with out := s.fab.out ++ [p] } }

/-- A packet of this module toward another, with the header fields of R308; module-addressed packets carry VDID and EDITION 0. -/
def mkPacket (s : State) (kind dst vdid edition dtask cseq : Nat) (maddr : Bool) (operand : W64) (payload : List Byte) : Packet :=
  { pver := 3, kind, maddr, ret := 0, dst, src := s.glb.moduleId,
    vdid := if maddr then 0 else vdid, ttl := 64, edition := if maddr then 0 else edition, dtask, cseq, operand, payload }

/-- A response to a requester outside a core: unit code, tag, response and data (R109). -/
def answerReq (s : State) (unit tag : Nat) (r : Resp) (data : List Byte) : State :=
  { s with resp := s.resp ++ [(unit, tag, r, data)] }

/-- An answer on the management plane. -/
def answerMgmt (s : State) (req : Nat) (ok : Bool) (words : List W64) : State :=
  { s with answers := s.answers ++ [⟨req, ok, words⟩] }

/-- A fresh draw number for free values (DESIGN CHOICE, log 3). -/
def draw (s : State) : Nat × State := (s.draws, { s with draws := s.draws + 1 })

-- counters

/-- Counter `i` of a cluster's set, and of the module's set, which sums it over the clusters (R415, R416). -/
def countCluster (s : State) (c i by_ : Nat) : State :=
  { s with clusters := tabMod {} s.clusters c (fun x => { x with counters := tabMod 0 x.counters i (· + BitVec.ofNat 64 by_) })
           modCnt := tabMod 0 s.modCnt i (· + BitVec.ofNat 64 by_) }
/-- Counter `i` of a partition's set (R416). -/
def countPart (s : State) (n i by_ : Nat) : State :=
  modPart s n (fun p => { p with counters := tabMod 0 p.counters i (· + BitVec.ofNat 64 by_) })
/-- Counter `i` of the cluster set and `j` of the partition set, for work of core `c` (R416). -/
def countBoth (s : State) (c n i j by_ : Nat) : State := countPart (countCluster s (c / 16) i by_) n j by_
/-- ERR_PROGRESS, which wraps at 2^32 (R378). -/
def progress (s : State) (n : Nat) : State := modPart s n (fun p => { p with progress := p.progress + 1 })

-- error records (R373–R376)

/-- The first words of a record as the host ring and the flash hold it. -/
def recordBytes (r : ErrRec) (phase : Bool) : List Byte :=
  let w0 (ph : Nat) := 2 ^ 60 + r.cls * 2 ^ 56 + r.severity * 2 ^ 53 + ph * 2 ^ 52 + r.code * 2 ^ 40 + r.status * 2 ^ 32 + r.rseq % 2 ^ 32
  let w2 := r.modId * 2 ^ 44 + r.ctx * 2 ^ 24 + r.vdid
  let w3 := r.utype * 2 ^ 60 + r.uindex * 2 ^ 48 +
    (match r.part with | none => 0 | some n => 2 ^ 47 + n * 2 ^ 40) +
    (match r.cmd with | none => 0 | some (q, c) => 2 ^ 35 + q * 2 ^ 32 + c % 2 ^ 32)
  let body (ph : Nat) := natBytes 8 (w0 ph) ++ natBytes 8 r.time ++ natBytes 8 w2 ++ natBytes 8 w3 ++
    (r.detail ++ List.replicate (3 - r.detail.length) 0#64).flatMap (fun w => natBytes 8 w.toNat) ++ natBytes 4 r.count
  body (b2n phase) ++ natBytes 4 (crc32c (body 0))

/-- One record placed in the host ring (R376). -/
def ringPlace (s : State) (r : ErrRec) : State :=
  let e := s.err
  let slot := e.pidx % 2 ^ e.ringLog2
  let s := hostControl s 64 (e.ringBase + 64 * slot) (recordBytes r ((e.pidx / 2 ^ e.ringLog2) % 2 = 0))
  let s := { s with err := { s.err with pidx := (e.pidx + 1) % 2 ^ 32 } }
  if r.severity ≥ 1 then raiseMsix s 64 2046 else s

/-- Free places of the host ring. -/
def ringRoom (e : Err) : Bool := decide ((e.pidx + 2 ^ 32 - e.cidx) % 2 ^ 32 < 2 ^ e.ringLog2)

/-- The gap record that stands for records `first` to `last`, dropped from the ring path (R374, R376). -/
def gapRecord (s : State) (first last : Nat) : ErrRec :=
  { cls := 11, severity := 1, code := 3, status := 0, rseq := first,
    time := s.err.dropTime,
    modId := if s.glb.idValid then s.glb.moduleId else 0, ctx := 0, vdid := 0, utype := 10, uindex := 0,
    part := none, cmd := none, detail := [0, BitVec.ofNat 64 last, 0], count := last + 1 - first }

/-- Waiting records moved into the host ring while it has room, oldest first, a gap record in place of overwritten ones. -/
def ringDrain : Nat → State → State
  | 0, s => s
  | k + 1, s =>
    if s.err.ringLog2 = 0 || s.err.ringRseq ≥ s.nv.rseq || !ringRoom s.err then s
    else
      let nxt := s.err.ringRseq + 1
      match tabGet none s.err.buf (nxt % Config.errBuf) with
      | some r =>
        if r.rseq = nxt then
          let s := ringPlace s r
          ringDrain k { s with err := { s.err with ringRseq := nxt } }
        else
          -- overwritten in the buffer: everything up to the oldest record still held is dropped from the ring path
          let last := s.nv.rseq - Config.errBuf
          let s := ringPlace s (gapRecord s nxt last)
          ringDrain k { s with err := { s.err with ringRseq := last, gap := true } }
      | none => { s with err := { s.err with ringRseq := s.nv.rseq } }

/-- A record written to the flash log, which is circular and erased in sectors of 1,024 records (R376). -/
def flashAppend (v : Nonvol) (r : ErrRec) : Nonvol :=
  { v with log := (if v.log.length ≥ Config.flashLog then v.log.drop 1024 else v.log) ++ [r], logged := v.logged + 1 }

/-- A record about to be overwritten in the buffer before it entered the ring: the first one dropped gives the gap record its TIME (R376). -/
def dropNoted (e : Err) (old : Option ErrRec) : Err :=
  match old with
  | some r => if e.ringLog2 ≠ 0 && r.rseq = e.ringRseq + 1 then { e with dropTime := r.time } else e
  | none => e

/-- A record written: next RSEQ, buffer, flash for severity 1 and above, host ring (R376). -/
def writeRecord (s : State) (r : ErrRec) : State :=
  let rseq := s.nv.rseq + 1
  let r := { r with rseq := rseq }
  let wraps := decide (r.severity ≥ 1) && decide (s.nv.logged ≥ Config.flashLog) && s.nv.logged % Config.flashLog == 0
  let v : Nonvol := { s.nv with rseq := rseq }
  let e := dropNoted s.err (tabGet none s.err.buf (rseq % Config.errBuf))
  let s : State := { s with
    nv := if r.severity ≥ 1 then flashAppend v r else v,
    err := { e with buf := tabSet none s.err.buf (rseq % Config.errBuf) (some r), wrap := s.err.wrap || wraps } }
  let s := if s.err.ringLog2 = 0 then { s with err := { s.err with ringRseq := rseq } } else s
  ringDrain 2 s

/-- The fields of R376 by which like events fold. -/
def sameFold (a b : ErrRec) : Bool :=
  a.cls == b.cls && a.code == b.code && a.utype == b.utype && a.uindex == b.uindex && a.vdid == b.vdid

/-- An event reported: severity 1 and 2 join or open a fold window of one second, every other is written at once (R376). -/
def report (s : State) (r : ErrRec) : State :=
  if r.severity = 1 || r.severity = 2 then
    if s.err.folds.any (sameFold r) then
      { s with err := { s.err with folds := s.err.folds.map (fun x => if sameFold r x then { x with count := x.count + 1 } else x) } }
    else { s with err := { s.err with folds := s.err.folds ++ [r] } }
  else writeRecord s r

/-- A record about a partition's work or about the module, with the fields every record carries. Records about a secure virtual
device in the SECURED state carry a zero DETAIL in the classes CORE, MEMORY and XLATE (R377) (DESIGN CHOICE, log 93). -/
def event (s : State) (cls severity code status utype uindex : Nat) (n : Option Nat) (cmd : Option (Nat × Nat)) (detail : List W64) : State :=
  let p := match n with | some k => partOf s k | none => {}
  let hide := p.vd.secure && s.nv.lifecycle == 2 && decide (cls ≤ 2)
  let mid := if s.glb.idValid then s.glb.moduleId else 0
  report s (ErrRec.mk cls severity code status 0 s.pwr.meridian mid p.ctx.tag p.vd.vdid utype uindex n cmd
    (if hide then [] else detail) 1)

-- the model's CONTROL packets (R308 gives the channel but no layout; DESIGN CHOICE, log 33): a code in OPERAND [63:56]

def ctlShareDone : Nat := 1
def ctlShareStart : Nat := 2
def ctlBar : Nat := 3
def ctlVerdict : Nat := 5
def ctlVerdictAck : Nat := 6
def ctlFence : Nat := 7
def ctlFenceAck : Nat := 8
def ctlContext : Nat := 9
def ctlHandle : Nat := 10
def ctlHandleGone : Nat := 11
def ctlRange : Nat := 12
def ctlRangeGone : Nat := 13
def ctlStreamCmd : Nat := 14
def ctlStreamDone : Nat := 15
def ctlRing : Nat := 16
def ctlRecord : Nat := 17
def ctlDelivered : Nat := 18
def ctlStop : Nat := 19
def ctlStopped : Nat := 20
def ctlBarFault : Nat := 22
def ctlReady : Nat := 23
def ctlGo : Nat := 24
def ctlShareOver : Nat := 25
def ctlHandleAck : Nat := 26
def ctlFenceTable : Nat := 27
def ctlQueueStop : Nat := 28
def ctlRangeAck : Nat := 29
def ctlRangeAsk : Nat := 30
def ctlRangeAnswer : Nat := 31
def ctlRangeFree : Nat := 32
def ctlRangeSet : Nat := 33
def ctlPageReturn : Nat := 34
def ctlPageReturned : Nat := 35
def ctlGraph : Nat := 36
def ctlGraphGone : Nat := 37
def ctlRingAsk : Nat := 38
def ctlRingGrant : Nat := 39
def ctlRingBack : Nat := 40
def ctlOwner : Nat := 41
def ctlPlaceAsk : Nat := 42
def ctlPlaceAnswer : Nat := 43
def ctlPlaceFree : Nat := 44
def ctlPlaced : Nat := 45
def ctlPool : Nat := 46
-- codes of ATLAS packets, placed the same way
def atlPrepare : Nat := 1
def atlPrepareAck : Nat := 2
def atlSettle : Nat := 3
def atlReserve : Nat := 4
def atlReserveAck : Nat := 5
def atlCommit : Nat := 6
def atlCancel : Nat := 7
def atlMirror : Nat := 8
def atlMirrorAck : Nat := 9
def atlTransfer : Nat := 10
def atlHeld : Nat := 11
def atlReleased : Nat := 12
def atlRelease : Nat := 13
def atlFreed : Nat := 14
def atlCollect : Nat := 15
def atlCollected : Nat := 16
def atlHeartbeat : Nat := 17
def atlVdidAsk : Nat := 18
def atlVdidGive : Nat := 19
def atlGoneVdid : Nat := 20
def atlFailure : Nat := 21
def atlKeys : Nat := 23
def atlChange : Nat := 24
def atlUnmirror : Nat := 25
/-- In place of a stream number: every entry of the sender's partition (log 33). -/
def allStreams : Nat := 2 ^ 20
def atlMoved : Nat := 28
def atlLock : Nat := 29
def atlLocked : Nat := 32
def atlKeysHeld : Nat := 27
/-- A member's leaving slices are clear (R262). -/
def atlClear : Nat := 31
def atlSwept : Nat := 30
def ctlOperand (code arg : Nat) : W64 := BitVec.ofNat 64 (code * 2 ^ 56 + arg % 2 ^ 56)

-- fences (R236–R239)

/-- Whether fence changes of a function wait for a standby front (R236). -/
def fenceWaits (s : State) (f : Nat) : Bool :=
  decide (f < 64) && (partOf s f).vd.front && (partOf s f).vd.standbyRank.isSome &&
  (partOf s f).vd.members.any (fun m => some m.rank == (partOf s f).vd.standbyRank && m.present)

/-- A fence's word as the newest change leaves it, acknowledged or not. -/
def fenceNewest (s : State) (f i : Nat) : W64 :=
  match ((partOf s f).fences.unacked.filter (fun x => x.1 == i)).getLast? with
  | some x => x.2
  | none => tabGet 0 (partOf s f).fences.words i

/-- A fence's word as waiters, shadows and reads see it. -/
def fenceSeen (s : State) (f i : Nat) : W64 := tabGet 0 (partOf s f).fences.words i

/-- A fence change taking effect: the word, and the shadow write when a shadow address is set (R236). -/
def fenceEffect (s : State) (f i : Nat) (w : W64) : State :=
  let s := modPart s f (fun p => { p with fences := { p.fences with words := tabSet 0 p.fences.words i w } })
  let sh := (partOf s f).fences.shadow
  if sh = 0 then s else hostControl s f (sh + 8 * i) (natBytes 8 w.toNat)

/-- The standby front's module. -/
def standbyModule (vd : Vd) : Nat := ((vd.members.find? (fun m => some m.rank == vd.standbyRank)).map (·.modId)).getD 0

/-- A fence change: at once, or sent to the standby front and made after its acknowledgement (R236). -/
def fenceChange (s : State) (f i : Nat) (w : W64) : State :=
  if fenceWaits s f then
    let vd := (partOf s f).vd
    let s := modPart s f (fun p => { p with fences := { p.fences with unacked := p.fences.unacked ++ [(i, w)] } })
    sendPacket s (mkPacket s 0x08 (standbyModule vd) vd.vdid vd.edition 0 0 false (ctlOperand ctlFence i) (natBytes 8 w.toNat))
  else fenceEffect s f i w

/-- ERROR set on a fence, its value kept (R238). -/
def fenceError (s : State) (f i : Nat) : State :=
  let w := fenceNewest s f i
  if w.getLsbD 63 then s else fenceChange s f i (w ||| BitVec.ofNat 64 (2 ^ 63))

/-- A signal of value `v` on fence `i` (R238): the state, and whether it did not take effect because of ERROR (FERR). -/
def fenceSignalValue (s : State) (f i v : Nat) : State × Bool :=
  let w := fenceNewest s f i
  let c := w.toNat % 2 ^ 48
  let d := (v + 2 ^ 48 - c) % 2 ^ 48
  if w.getLsbD 63 then ({ s with cq := { s.cq with event := s.cq.event ||| 4 } }, true)
  else if d = 0 then (s, false)
  else if d < 2 ^ 47 then (fenceChange s f i (BitVec.ofNat 64 (v % 2 ^ 48)), false)
  else if d = 2 ^ 47 then
    let s := fenceError s f i
    let s := { s with cq := { s.cq with event := s.cq.event ||| 4 } }
    (event s 3 1 2 0 0 0 (if f < 64 then some f else none) none [BitVec.ofNat 64 i, BitVec.ofNat 64 v], true)
  else
    let s := { s with cq := { s.cq with event := s.cq.event ||| 4 } }
    (event s 3 1 3 0 0 0 (if f < 64 then some f else none) none [BitVec.ofNat 64 i, BitVec.ofNat 64 v], false)

/-- Fence value `f` is at or after `w`, by serial arithmetic on 48 bits (R237). -/
def fenceAtOrAfter (f w : Nat) : Bool := decide ((f % 2 ^ 48 + 2 ^ 48 - w % 2 ^ 48) % 2 ^ 48 < 2 ^ 47)

/-- A wait for `w` on a fence word is satisfied (R237). -/
def waitSatisfied (word : W64) (w : Nat) : Bool := word.getLsbD 63 || fenceAtOrAfter word.toNat w

-- commands

/-- FLAGS bits of a command (R228). -/
def cmdWait (c : Cmd) : Bool := bitOf c.flags 0
def cmdSignal (c : Cmd) : Bool := bitOf c.flags 1
def cmdSerial (c : Cmd) : Bool := bitOf c.flags 2
def cmdIrq (c : Cmd) : Bool := bitOf c.flags 3
def cmdNocomp (c : Cmd) : Bool := bitOf c.flags 4
def cmdDurable (c : Cmd) : Bool := bitOf c.flags 5

/-- The 64-bit parameter word at packet byte `off`. -/
def cmdWord (c : Cmd) (off : Nat) : Nat := (c.words.getD (off / 8) 0).toNat

/-- A command of a queue by its SEQ. -/
def findCmd (s : State) (f q seq : Nat) : Option Cmd := (queueOf s f q).cmds.find? (fun c => c.seq == seq)

/-- A change of one command. -/
def modCmd (s : State) (f q seq : Nat) (g : Cmd → Cmd) : State :=
  modQueue s f q (fun x => { x with cmds := x.cmds.map (fun c => if c.seq = seq then g c else c) })

/-- A command's effect is complete: its status and RESULT stand for the completion record (R231). -/
def finish (s : State) (f q seq status result : Nat) : State :=
  modCmd s f q seq (fun c => { c with phase := .done, status, result })

/-- The function whose virtual device a command works for: the VF's own, or on a PF queue the partition of its CTX (R229). -/
def targetPart (s : State) (f : Nat) (c : Cmd) : Option Nat :=
  if f < 64 then some f
  else (tabKeys (fun n p => decide (n < 64) && p.vd.used && p.ctx.tag == c.ctx && p.ctx.state != .none) s.parts).head?

/-- The partition is FROZEN, or its FREEZE has begun: its engines rest (R241, R338). -/
def frozen (s : State) (n : Nat) : Bool := (partOf s n).ctx.state == .frozen

/-- The queue whose commands a unit runs, by the unit code of a holder (R218). -/
def queueOfUnit (u : Nat) : Option Nat :=
  if u < 1024 then none else if u < 1028 then some 2 else if u < 1036 then some 3 else if u < 1038 then some 4 else if u = 1038 then some 1
  else if u = 1039 then some 5 else if u < 1044 then some 0 else none

/-- A command stands behind one of its queue that holds a transfer for a fault (R167). -/
def behindHeld (s : State) (f q seq : Nat) : Bool :=
  let hs := ((s.sur.faultQ ++ s.sur.waiting).filter (fun x => x.fn == f + 1)).flatMap (·.holders)
  !hs.isEmpty && ((queueOf s f q).cmds.takeWhile (fun c => c.seq != seq)).any (fun c =>
    c.phase == .started && hs.any (fun h => queueOfUnit h.1 == some q && h.2 == c.seq))

/-- A started command with the given opcode, of function `f`, queue `q`; one of a FROZEN context rests, and so does one behind a held command. -/
def startedCmd (s : State) (f q seq opc : Nat) : Option Cmd :=
  match findCmd s f q seq with
  | some c =>
    let rests := behindHeld s f q seq || (match targetPart s f c with | some n => frozen s n | none => false)
    if c.phase = .started && c.opc = opc && !rests then some c else none
  | none => none

-- cores stopped

/-- A core freed without a save record (R382): idle, its queue and its unit's work gone. -/
def freeCore (c : Core) : Core := { mode := .idle, image := c.image, imageOf := c.imageOf, lmem := c.lmem, lpoison := c.lpoison, nextId := c.nextId }

/-- Every core that runs a task of the partition freed (R382). -/
def stopCores (s : State) (n : Nat) : State :=
  { s with cores := s.cores.map (fun (k, c) => (k, if c.mode != .idle && c.part == n then freeCore c else c)) }

/-- Secure virtual devices have a partition here: a secure tenant is resident (R347). -/
def secureResident (s : State) : Bool := s.parts.any (fun x => x.2.vd.used && x.2.vd.secure)

/-- Coarse readings are in force (R372). -/
def coarse (s : State) : Bool := s.nv.lifecycle = 2 && secureResident s

/-- The arbiter of a virtual device is the lowest-ranked live partition's module (R272). -/
def arbiterRank (vd : Vd) : Option Nat :=
  (vd.members.filter (·.present)).foldl (fun m x => match m with | none => some x.rank | some r => some (Nat.min r x.rank)) none

/-- This module is the arbiter of the partition's virtual device. -/
def isArbiter (vd : Vd) : Bool := arbiterRank vd = some vd.rank

/-- The front role moves to a rank (R264) (DEDUCED, log 108). -/
def moveFront (vd : Vd) (r : Nat) : Vd :=
  { vd with frontRank := r, front := vd.rank == r, standby := vd.standby && vd.rank != r, standbyRank := if vd.standbyRank = some r then none else vd.standbyRank }

/-- Edition `f` is later than `w`, by serial arithmetic on 32 bits (R265). -/
def editionLater (f w : Nat) : Bool :=
  let d := (f + 2 ^ 32 - w) % 2 ^ 32
  decide (1 ≤ d) && decide (d < 2 ^ 31)

/-- A new edition applied on this module (R265, R288). -/
def applyEdition (s : State) (n e : Nat) : State :=
  let s := modVd s n (fun v => { v with edition := e % 2 ^ 32, overlap := true })
  { s with atl := { s.atl with event := s.atl.event ||| 1 } }

/-- A map change as numbers (ATLAS packets; log 33). -/
def changeNats : MapChange → List Nat
  | .grow l g => [1, l.length] ++ l ++ [g.length] ++ g
  | .leaving l => [2, l.length] ++ l
  | .remove l => [3, l.length] ++ l
  | .take k => [4, k]
  | .back k => [5, k]
  | .guar m l p v => [6, m.length] ++ m ++ [l, p, b2n v]
  | .front r => [7, r]
  | .absent r => [8, r]
  | .present r => [9, r]
  | .owner x m => [10, x, m]
  | .map l => [11, l.length] ++ l.flatMap (fun e => [e.rank, e.modId, e.compute, e.memory, e.links, b2n e.present, e.partner, b2n e.partnerValid, b2n e.standby])
  | .counts m c y l => [15, m, c, y, l]
  | .only m c => [12, m] ++ changeNats c
  | .seq a b => [13] ++ changeNats a ++ changeNats b
  | .other => [14]

/-- An ATLAS packet to a module. -/
def sendAtlas (s : State) (mid code arg : Nat) (payload : List Byte) : State :=
  sendPacket s (mkPacket s 0x09 mid 0 0 0 0 true (ctlOperand code arg) payload)

/-- The module of the arbiter (R272). -/
def arbiterModule (vd : Vd) : Nat := ((vd.members.find? (fun m => some m.rank == arbiterRank vd)).map (·.modId)).getD 0

/-- The slices that a partition holds on this module, counted for the map (DEDUCED, log 132). -/
def ownCounts (s : State) (n : Nat) : MapChange :=
  let c (p : Nat → Bool) : Nat := (assignedOf s n p).length
  .counts s.glb.moduleId (c isCompute) (c isMemory) (c isLink)
def setCounts (vd : Vd) : MapChange → Vd
  | .counts m c y l => { vd with members := vd.members.map (fun x => if x.modId = m then { x with compute := c, memory := y, links := l } else x) }
  | _ => vd

/-- The next edition of a virtual device, applied here and prepared on the other members (R267). -/
def bumpEdition (s : State) (n : Nat) (ch : MapChange) : State :=
  let vd := (partOf s n).vd
  let e := (vd.edition + 1) % 2 ^ 32
  let others := (vd.members.filter (fun m => m.modId != s.glb.moduleId && m.present)).map (·.modId)
  let s := applyEdition s n e
  let s := modVd s n (fun v => { v with preparing := some (e, others, ch) })
  let payload := natBytes 8 vd.vdid ++ natBytes 8 e ++ (changeNats ch).flatMap (natBytes 8)
  others.foldl (fun s m => sendPacket s (mkPacket s 0x09 m 0 0 0 0 true (ctlOperand atlPrepare 0) payload)) s

end Sys2Proof.Machine
end

