-- ==== Sys2Proof/Machine/Regions.lean ====
section
/-! DEFINITION. The physical map, the Legend check of one access, ranges and where their addresses lie (R23, R117, R118, R154–R158, R170, R179, R346–R349). -/

namespace Sys2Proof.Machine

-- the physical map (R117)

def llmBase : Nat := 0x0C000000000
def clusterBase : Nat := 0x0C100000000
def reservationAt : Nat := 0x7F400000
def chanPa (g : Nat) : Nat := g * 0x80000000
def granulePa (i : Nat) : Nat := llmBase + i * 0x100000
def clusterPa (n : Nat) : Nat := clusterBase + n * 0x800000

/-- The model's name for the spill page in host memory of a retired page: this much above the page's own address, outside the 44-bit map (R179; DESIGN
CHOICE, log 159). -/
def spillBase : Nat := 2 ^ 44

/-- What a module physical address names (R117, R118). -/
inductive Region where
  /-- a stack channel below its reservation -/
  | stack (g : Nat)
  /-- a channel's firmware reservation (R19) -/
  | reservation (g : Nat)
  | llm (i : Nat)
  | cluster (n : Nat)
  | inbox (n : Nat)
  | unassigned
  /-- an address of `spillBase` and above, by which the model names the host spill pages of a channel's retired pages -/
  | spill (g : Nat)
  deriving DecidableEq, Repr

def regionOf (pa : Nat) : Region :=
  if pa < 384 * 0x80000000 then
    (if pa % 0x80000000 < reservationAt then .stack (pa / 0x80000000) else .reservation (pa / 0x80000000))
  else if llmBase ≤ pa && pa < llmBase + 0x20000000 then .llm ((pa - llmBase) / 0x100000)
  else if clusterBase ≤ pa && pa < clusterBase + 0x20000000 then
    let n := (pa - clusterBase) / 0x800000
    let o := (pa - clusterBase) % 0x800000
    if o < 0x580000 then .cluster n else if o < 0x600000 then .inbox n else .unassigned
  else if spillBase ≤ pa && pa < spillBase + 384 * 0x80000000 then .spill ((pa - spillBase) / 0x80000000)
  else .unassigned

/-- Keys of the model's Legend entries: one region each, and from `keyExtra` on the parts of channels in which firmware's areas lie (R348). The entry
numbers are firmware's choice (DESIGN CHOICE, log 31). -/
def keyCluster (n : Nat) : Nat := n
def keyChan (g : Nat) : Nat := 64 + g
def keyGranule (i : Nat) : Nat := 512 + i
def keyReservation (g : Nat) : Nat := 1024 + g
def keyExtra : Nat := 1536

def regionKey : Region → Option Nat
  | .stack g => some (keyChan g)
  | .reservation g => some (keyReservation g)
  | .llm i => some (keyGranule i)
  | .cluster n => some (keyCluster n)
  | .spill g => some (keyChan g)
  | _ => none

/-- Bounds of a region, for its Legend entry. -/
def regionBase : Region → Nat
  | .stack g => chanPa g
  | .reservation g => chanPa g + reservationAt
  | .llm i => granulePa i
  | .cluster n => clusterPa n
  | _ => 0
def regionLimit : Region → Nat
  | .stack g => chanPa g + reservationAt - 4096
  | .reservation g => chanPa g + 0x7FFFF000
  | .llm i => granulePa i + 0xFF000
  | .cluster n => clusterPa n + 0x57F000
  | _ => 0

/-- Rights of R348: TR TW and SW for a tenant's region; FR FW and SW for firmware's. -/
def rightsTenant : Nat := 0xC1
def rightsFirmware : Nat := 0x31
def rightsErase : Nat := 0x01

/-- A Legend entry; a channel's reservation has its firmware entry from bring-up (R350). -/
def legendOf (s : State) (key : Nat) : Legend :=
  let e := tabGet {} s.sec.legend key
  if e.valid || key < 1024 || key ≥ 1408 then e
  else { valid := true, owner := 0x40, base := regionBase (.reservation (key - 1024)), limit := regionLimit (.reservation (key - 1024)), rights := rightsFirmware }

/-- A physical address lies in a Legend entry's granules. -/
def inEntry (e : Legend) (pa : Nat) : Bool := decide (e.base ≤ pa) && decide (pa < e.limit + 4096)

/-- The Legend entry that holds a physical address, an invalid one where none does (R348, R349). A spill page has the entry of the page that it stands
for. -/
def legendAt (s : State) (pa : Nat) : Legend :=
  match regionKey (regionOf pa) with
  | none => {}
  | some k =>
    let e := legendOf s k
    if e.valid && inEntry e (pa % spillBase) then e
    else ((s.sec.legend.find? (fun x => decide (keyExtra ≤ x.1) && x.2.valid && inEntry x.2 (pa % spillBase))).map (·.2)).getD {}

/-- The entries of the parts of a channel, beyond its own, removed. -/
def dropExtra (r : Region) (t : Tab Legend) : Tab Legend :=
  match r with
  | .stack g => t.filter (fun x => !(decide (keyExtra ≤ x.1) && decide (chanPa g ≤ x.2.base) && decide (x.2.base < chanPa g + 0x80000000)))
  | _ => t

/-- A Legend entry set for a region, in place of every entry within it. -/
def setLegend (s : State) (r : Region) (owner rights : Nat) (world lock : Bool) : State :=
  match regionKey r with
  | none => s
  | some k =>
    let e : Legend := { valid := true, world, lock, owner, base := regionBase r, limit := regionLimit r, rights }
    { s with sec := { s.sec with legend := tabSet {} (dropExtra r s.sec.legend) k e } }

/-- The parts of a channel between the areas that firmware holds there, which come in rising order: first page, end, and whether firmware holds it. -/
def cutSpan : Nat → List (Nat × Nat) → List (Nat × Nat × Bool)
  | lo, [] => if lo < 0x7F400 then [(lo, 0x7F400, false)] else []
  | lo, a :: l => (if lo < a.1 then [(lo, a.1, false)] else []) ++ (a.1, a.2, true) :: cutSpan a.2 l

/-- Areas in rising order. -/
def insertArea (x : Nat × Nat) : List (Nat × Nat) → List (Nat × Nat)
  | [] => [x]
  | y :: ys => if x.1 ≤ y.1 then x :: y :: ys else y :: insertArea x ys

/-- The Legend entries of the parts of a channel, the first part of the tenant's under the channel's own key (R348). -/
def setParts (g : Nat) (own : Legend) (own? : Bool) (t : Tab Legend) : List (Nat × Nat × Bool) → Tab Legend
  | [] => t
  | x :: xs =>
    let first := own? && !x.2.2
    let key := if first then keyChan g else keyExtra + (((List.range 2560).find? (fun i => !(tabGet {} t (keyExtra + i)).valid)).getD 0)
    let e : Legend := { own with base := chanPa g + x.1 * 4096, limit := chanPa g + (x.2.1 - 1) * 4096 }
    let e := if x.2.2 then { e with owner := 0x40, rights := rightsFirmware } else e
    setParts g own (own? && !first) (tabSet {} t key e) xs

/-- Firmware's areas on a channel of a partition marked firmware-owned (R160, R188, R348); valid entries do not overlap. -/
def markAreas (s : State) (n g : Nat) : State :=
  let areas := ((partOf s n).carve.areas.filter (fun a => a.2.1 == g)).map (fun a => (a.2.2.1, a.2.2.1 + a.2.2.2))
  let t := tabDel (dropExtra (.stack g) s.sec.legend) (keyChan g)
  { s with sec := { s.sec with legend := setParts g (legendOf s (keyChan g)) true t (cutSpan 0 (areas.foldr insertArea [])) } }

/-- A region that its partition has left (R350): OWNER 0x40 with SW alone, WORLD and LOCK kept until the erase has ended. -/
def eraseLegend (s : State) (r : Region) : State :=
  match regionKey r with
  | none => s
  | some k => let e := legendOf s k; setLegend s r 0x40 rightsErase e.world e.lock

/-- The region of a compute or memory slice after its erase (R350): WORLD and LOCK clear, OWNER 0x7F. -/
def freeLegend (s : State) (slice : Nat) : State :=
  if slice < 64 then setLegend s (.cluster slice) 0x7F rightsErase false false
  else if slice < 448 then setLegend s (.stack (slice - 64)) 0x7F rightsErase false false
  else s

-- masters and worlds (R346, R348)

/-- Rights bits (read, write) of a master's class. -/
def classBits : Master → Nat × Nat
  | .cp _ => (5, 4)
  | .mp => (3, 2)
  | .sp => (1, 0)
  | _ => (7, 6)

def tenantClass : Master → Bool
  | .cp _ => false | .mp => false | .sp => false | _ => true

/-- The world of an access that a master makes for partition `n` (R346). -/
def accessSecure (s : State) (m : Master) (n : Nat) : Bool :=
  match m with
  | .sp => true
  | .mp => false
  | .host _ t => t && (partOf s n).vf.tdi == .run
  | _ => (partOf s n).vd.secure

/-- The outcome of the Legend check (R349): allowed, refused, or refused with an alarm of R368. -/
inductive Access where
  | ok | fault | alarm (code : Nat)
  deriving DecidableEq, Repr

/-- The check of one access to a physical address (R23, R118, R349). A refusal by WORLD has source 0x02, the one of R368 for a world mismatch (DEDUCED,
log 136). -/
def checkAccess (s : State) (m : Master) (n pa : Nat) (write : Bool) : Access :=
  let e := legendAt s pa
  let bit := if write then (classBits m).2 else (classBits m).1
  let gated := match regionOf pa with | .cluster c => (sliceOf s c).gated | _ => false
  let cached := match regionOf pa with | .llm i => (granuleOf s i).cache | _ => false
  if gated || cached || !e.valid then .fault
  else
    let world := e.world && !accessSecure s m n
    if !(world || !bitOf e.rights bit || (tenantClass m && !(e.owner == n || (e.owner == 0x41 && !write)))) then .ok
    else match m with
      | .cp _ => .alarm 7
      | .mp => .alarm 7
      | _ => if world then .alarm 2 else .fault

-- translation (R154–R158, R170, R179)

/-- Where a device virtual address leads. -/
inductive Dest where
  | here (pa : Nat)
  | there (modId pa : Nat)
  | host (addr : Nat) (pv : Bool) (pasid : Nat)
  /-- a host-resident page of a MIGRATABLE range or one that is migrating, or a host page whose translation the host has not given: the access waits
  (R167, R170) -/
  | wait
  | fault
  deriving DecidableEq, Repr

/-- The range that covers an address (R155, R181). -/
def findRange (p : Part) (va : Nat) : Option Range :=
  p.ranges.find? (fun r => decide (r.base * 4096 ≤ va) && decide (va < (r.base + r.len) * 4096))

/-- First byte of a target: a channel or a granule (R157). -/
def targetPa (typ idx : Nat) : Nat := if typ = 0 then chanPa idx else granulePa idx

/-- The physical address of a byte of a DEVICE range (R158). -/
def deviceAddr (r : Range) (va : Nat) : Nat :=
  let off := va - r.base * 4096
  let u := 12 + r.unit
  let blk := off / 2 ^ u
  let t := r.targets.getD (blk % r.n) (0, false, 0)
  targetPa t.1 t.2.2 + r.offset * 4096 + (blk / r.n) * 2 ^ u + off % 2 ^ u

/-- An address through its channel's page redirect table (R179). -/
def redirect (s : State) (pa : Nat) : Nat :=
  match regionOf pa with
  | .stack g =>
    match (chanOf s g).redirect.find? (fun x => x.1 == pa % 0x80000000 / 65536) with
    | some x => x.2 + pa % 65536
    | none => pa
  | _ => pa

/-- The key of a page of a MIGRATABLE range in the partition's residence table: the 4 KiB page number of its first byte. -/
def pageKey (r : Range) (va : Nat) : Nat := r.base + (va - r.base * 4096) / 65536 * 16

/-- The home partition of residence tables is the lowest-ranked one (R170). -/
def isHomePart (p : Part) : Bool := (p.vd.members.filter (·.present)).all (fun m => decide (p.vd.rank ≤ m.rank))
def homeModule (p : Part) : Nat :=
  ((p.vd.members.filter (·.present)).foldl (fun a m => match a with
    | none => some (m.rank, m.modId)
    | some x => if m.rank < x.1 then some (m.rank, m.modId) else some x) (none : Option (Nat × Nat))).elim 0 (·.2)

/-- The address lies in the request port of a POOL range (R174). -/
def poolPort (r : Range) (va : Nat) : Bool := r.pool && r.kind == 1 && decide (va < r.base * 4096 + 4096)

end Sys2Proof.Machine
end

