-- ==== Sys2Proof/Machine/Extent.lean ====
section
/-! DEFINITION. Carve-outs and their free capacity, taken extents, the choice of extents and pages (R157–R159, R170, R172, R173, R177–R179). -/

namespace Sys2Proof.Machine

-- carve-outs (R172, R173)

/-- 4 KiB pages of a channel below its reservation, and of a granule. -/
def chanPages : Nat := 0x7F400
def granulePages : Nat := 256

def memSlices (s : State) (n : Nat) : List Nat := (assignedOf s n isMemory).map (· - 64)
/-- Memory slices on which something new may be placed: not those that are leaving (R262). -/
def placeSlices (s : State) (n : Nat) : List Nat := (memSlices s n).filter (fun g => !(partOf s n).vd.leaving.contains (64 + g))
def scratchGranules (s : State) (n : Nat) : List Nat := tabKeys (fun _ g => g.valid && !g.cache && g.part == n) s.granules
def computeSlices (s : State) (n : Nat) : List Nat := assignedOf s n isCompute

/-- Pages of the translation area, and of the context save area of a compute slice, 372 for each core (R172). -/
def translationPages : Nat := 512
def savePages : Nat := 5952
def areaPages (clusters : Nat) : Nat := translationPages + savePages * clusters

/-- The carve-out in 4 KiB pages (R172): a retired page of a channel's reservation takes nothing from it (R144). -/
def carvePages (s : State) (n : Nat) : Nat :=
  ((memSlices s n).map (fun g => chanPages - 16 * ((chanOf s g).retired.filter (fun q => decide (q < 32576))).length)).sum + granulePages * (scratchGranules s n).length
/-- The placeable part (R172, R186). -/
def placeable (s : State) (n : Nat) : Nat := carvePages s n - areaPages (computeSlices s n).length

/-- Pages of a residence table: 8 bytes for each 64 KiB page (R170). -/
def residencePages (r : Range) : Nat := ((r.len + 15) / 16 * 8 + 4095) / 4096

/-- Entries whose extents are taken: those of the range table, those withdrawn and not yet freed, and those that come from another module (R178, R181). -/
def placedRanges (p : Part) : List Range := p.ranges ++ p.dying.map (·.1) ++ p.coming.map (·.range)

/-- Pages a range takes on this module (R173): a DEVICE range placed here, or a residence table in its home partition. -/
def rangePages (s : State) (n : Nat) (r : Range) : Nat :=
  if r.kind = 1 then (if r.modId = s.glb.moduleId then r.len else 0)
  else if r.kind = 3 && isHomePart (partOf s n) then residencePages r else 0

/-- Redirect entries of a partition's channels, with their destination pages (R179). -/
def redirectsOf (s : State) (n : Nat) : List (Nat × Nat) := (memSlices s n).flatMap (fun g => (chanOf s g).redirect)
def devicePages (p : Part) : List Nat := (p.residence.filter (fun x => x.2.dev || x.2.phys != 0)).map (·.2.phys)

/-- Placeable pages in use (R173), and free. -/
def usedPages (s : State) (n : Nat) : Nat :=
  let p := partOf s n
  ((placedRanges p).map (rangePages s n)).sum + ((p.carve.areas.filter (fun a => a.1 == 2)).map (fun a => a.2.2.2)).sum +
    16 * (devicePages p).length + 16 * ((redirectsOf s n).filter (fun x => decide (x.2 < spillBase))).length + p.carve.extra
def freePages (s : State) (n : Nat) : Nat := placeable s n - usedPages s n

-- extents: spans of 4 KiB pages on a target, a channel (type 0) or a granule (type 1)

def targetPages (typ : Nat) : Nat := if typ = 0 then chanPages else granulePages

/-- The extent of a physical span on a target. -/
def extentOf (pa pages typ idx : Nat) : List (Nat × Nat) :=
  if targetPa typ idx ≤ pa && pa < targetPa typ idx + targetPages typ * 4096 then
    [((pa - targetPa typ idx) / 4096, (pa - targetPa typ idx) / 4096 + pages)] else []

/-- The extent a range takes on each of its targets. -/
def slotExtent (r : Range) : Nat × Nat := (r.offset, r.offset + r.len / r.n)

/-- Extents taken on a target of the partition (R159). -/
def takenOn (s : State) (n typ idx : Nat) : List (Nat × Nat) :=
  let p := partOf s n
  let areas := if typ = 0 then (p.carve.areas.filter (fun a => a.2.1 == idx)).map (fun a => (a.2.2.1, a.2.2.1 + a.2.2.2)) else []
  let rs := (placedRanges p).flatMap (fun r =>
    if r.kind = 1 && r.modId = s.glb.moduleId && r.targets.any (fun t => t.1 == typ && t.2.2 == idx) then [slotExtent r]
    else if r.kind = 3 && isHomePart p then extentOf r.residence (residencePages r) typ idx else [])
  let pg := (devicePages p).flatMap (fun a => extentOf a 16 typ idx)
  let rd := (redirectsOf s n).flatMap (fun x => extentOf x.2 16 typ idx)
  let gone := if typ = 0 then (chanOf s idx).retired.map (fun q => (16 * q, 16 * q + 16)) else []
  let mv := (s.sur.moves.filter (fun m => m.n == n && typ == 0 && m.dest == idx)).flatMap (fun m =>
    (p.ranges.filter (fun r => r.base == m.base)).map slotExtent)
  areas ++ rs ++ pg ++ rd ++ gone ++ mv

/-- A taken extent that meets [a, a + k). -/
def meets (taken : List (Nat × Nat)) (a k : Nat) : Option (Nat × Nat) := taken.find? (fun x => decide (a < x.2) && decide (x.1 < a + k))

/-- The extent is free on the target. -/
def extentFree (s : State) (n typ idx a k : Nat) : Bool :=
  decide (a + k ≤ targetPages typ) && (meets (takenOn s n typ idx) a k).isNone

/-- Offsets at which an extent can start: 0 and the ends of taken extents. The lowest free offset is one of them, up to alignment. -/
def startsOf (taken : List (Nat × Nat)) (align : Nat) : List Nat := 0 :: taken.map (fun x => (x.2 + align - 1) / align * align)

def insertNat (x : Nat) : List Nat → List Nat
  | [] => [x]
  | y :: ys => if x ≤ y then x :: y :: ys else y :: insertNat x ys
def sortNat (l : List Nat) : List Nat := l.foldr insertNat []

/-- The lowest OFFSET at which at least `k` of the candidates have the extent free, with the `k` of lowest index (R177 step 3); `align` is the bound on which
it lies, in 4 KiB pages. -/
def chooseAligned (s : State) (n typ : Nat) (cand : List Nat) (k pages align : Nat) : Option (Nat × List Nat) :=
  let starts := sortNat (cand.flatMap (fun i => startsOf (takenOn s n typ i) align))
  starts.findSome? (fun a =>
    let ok := cand.filter (fun i => extentFree s n typ i a pages)
    if k ≤ ok.length then some (a, ok.take k) else none)
def chooseExtent (s : State) (n typ : Nat) (cand : List Nat) (k pages : Nat) : Option (Nat × List Nat) := chooseAligned s n typ cand k pages 1

/-- The place of a residence table: RESIDENCE names a 64 KiB bound (R157, R170). -/
def tablePlace (s : State) (n : Nat) (cand : List Nat) (r : Range) : Option Nat :=
  match chooseAligned s n 0 cand 1 (residencePages r) 16 with
  | some (o, g :: _) => some (chanPa g + o * 4096)
  | _ => none

/-- A free 64 KiB page of the partition's memory slices: lowest slice, lowest offset (R144, R170). -/
def freePage (s : State) (n : Nat) : Option Nat :=
  if freePages s n < 16 then none
  else (placeSlices s n).findSome? (fun g =>
    ((sortNat (startsOf (takenOn s n 0 g) 16)).find? (fun a => extentFree s n 0 g a 16)).map (fun a => chanPa g + a * 4096))

/-- An area placed for firmware at the lowest offset free on the lowest memory slice that has it, and marked in the Legend (R160, R172 and R188 give no
place; DESIGN CHOICE, log 36). -/
def takeArea (s : State) (n kind pages : Nat) : Option State :=
  match chooseExtent s n 0 (placeSlices s n) 1 pages with
  | some (a, g :: _) => some (markAreas (modPart s n (fun p => { p with carve := { p.carve with areas := p.carve.areas ++ [(kind, g, a, pages)] } })) n g)
  | _ => none

-- from physical addresses back to ranges

/-- The device virtual address that a DEVICE range gives to a physical address. -/
def vaOfPa (r : Range) (pa : Nat) : Option Nat :=
  let u := 12 + r.unit
  ((List.range r.n).zip r.targets).findSome? (fun x =>
    let b := targetPa x.2.1 x.2.2.2 + r.offset * 4096
    let d := pa - b
    let off := (d / 2 ^ u * r.n + x.1) * 2 ^ u + d % 2 ^ u
    if b ≤ pa && off < r.len * 4096 then some (r.base * 4096 + off) else none)

/-- The address whose accesses a redirect entry sends to `pa`, `pa` itself where none does (R179). -/
def unredirect (s : State) (pa : Nat) : Nat :=
  (s.chans.findSome? (fun c => (c.2.redirect.find? (fun x => x.2 == pa / 65536 * 65536)).map
    (fun x => chanPa c.1 + x.1 * 65536 + pa % 65536))).getD pa

/-- A range with its partition that holds a physical address, satisfying `ok`. -/
def rangeAt (s : State) (pa : Nat) (ok : Range → Bool) : Option (Nat × Range × Nat) :=
  s.parts.findSome? (fun x => x.2.ranges.findSome? (fun r =>
    if r.kind = 1 && r.modId = s.glb.moduleId && ok r then (vaOfPa r (unredirect s pa)).map (fun va => (x.1, r, va)) else none))

/-- A range that the 9600 repairs from its backing source (R391): W is 0 and BACKING names one. -/
def backed (r : Range) : Bool := !r.w && r.backing != 0

/-- The partition to which a physical address belongs, by its slice. -/
def ownerOf (s : State) (pa : Nat) : Option Nat :=
  let k := match regionOf pa with | .stack g => some (64 + g) | .spill g => some (64 + g) | .cluster c => some c | _ => none
  match regionOf pa with
  | .llm i => if (granuleOf s i).valid then some (granuleOf s i).part else none
  | _ => match k with
    | some k => if (sliceOf s k).state = .assigned || (sliceOf s k).state = .releasing then some (sliceOf s k).owner else none
    | none => none

end Sys2Proof.Machine
end

