-- ==== Sys2Proof/Machine/MemOps.lean ====
section
/-! DEFINITION. Memory: translation of device virtual addresses, reads and writes of stacks, LLM and cluster memory with poison and line metadata (R23, R117, R118, R126, R138, R139, R154–R158, R170, R175, R349, R455). -/

namespace Sys2Proof.Machine

-- the function and port through which host accesses leave (R455), and translation by the host (R163, R164)

/-- A port is usable for a partition's VF (R328). -/
def portUsable (s : State) (n p : Nat) : Bool :=
  (if p = 0 then (partOf s n).vf.exposedA && !(partOf s n).vf.offA else (partOf s n).vf.exposedB && !(partOf s n).vf.offB) &&
  (portOf s p).link == 2 && (portOf s p).enabled

/-- The function through which a partition's host accesses leave this module (R455): its own VF, or the front's when its VF has no usable port. -/
def hostFunc (s : State) (n : Nat) : Option Nat :=
  if portUsable s n 0 || portUsable s n 1 then some n
  else (tabKeys (fun _ p => p.vd.used && p.vd.vdid == (partOf s n).vd.vdid && p.vd.front) s.parts).head?

/-- A function's number in the tags of translations: 0 the PF, 1–64 a VF (R185). -/
def atsFn (f : Nat) : Nat := if f < 64 then f + 1 else 0
/-- The tag of accesses that carry no PASID. -/
def noPasid : Nat := 2 ^ 20
def pasidTag (pv : Bool) (pasid : Nat) : Nat := if pv then pasid else noPasid

/-- The host has enabled ATS on a function, on the port that it uses (R163). -/
def atsOn (s : State) (f : Nat) : Bool := tabGet 0 (portOf s (portFor s f)).ats (atsFn f) != 0

/-- The entry of the address translation cache that covers a host page (R164). -/
def atcFind (s : State) (f tag page : Nat) : Option AtcEntry :=
  s.sur.atc.find? (fun e => e.port == portFor s f && e.fn == atsFn f && e.pasid == tag && decide (e.page ≤ page) && decide (page < e.page + e.pages))

/-- A host address as it leaves through this module: translated by the host where ATS is on, and untranslated where it is not, or where another module
sends it (R156, R163, R455). Without a translation the access waits. -/
def hostDest (s : State) (n addr : Nat) (pv : Bool) (pasid : Nat) : Dest :=
  match hostFunc s n with
  | none => .host addr pv pasid
  | some f =>
    if !atsOn s f then .host addr pv pasid
    else match atcFind s f (pasidTag pv pasid) (addr / 4096) with
      | some e => .host ((e.to_ + (addr / 4096 - e.page)) * 4096 + addr % 4096) pv pasid
      | none => .wait

/-- The host bus address of a byte of a HOST or MIGRATABLE range, before IOMMU translation (R157). -/
def hostAddr (r : Range) (va : Nat) : Nat := r.hostBase + (va - r.base * 4096)

/-- Translation of one byte for partition `n` (R155–R158, R170, R175). An access to a host-resident page of a MIGRATABLE range waits for its
migration while the carve-out has a free page, and goes to host memory otherwise. An address of 2^64 and above stands for a request that already names a module physical
address (R117); no device virtual address is so large (DESIGN CHOICE, log 39). -/
def translate (s : State) (n va : Nat) (write : Bool) : Dest :=
  let p := partOf s n
  if va ≥ 2 ^ 64 then .here (redirect s (va - 2 ^ 64))
  else match findRange p va with
  | none => .fault
  | some r =>
    if !(if write then r.w else r.r) || va ≥ 2 ^ 52 || poolPort r va then .fault
    else if r.kind = 1 then
      (if r.modId = s.glb.moduleId then .here (redirect s (deviceAddr r va)) else .there r.modId (deviceAddr r va))
    else if r.kind = 2 then hostDest s n (hostAddr r va) r.pv r.pasid
    else if !isHomePart p then .there (homeModule p) 0
    else
      let e := tabGet {} p.residence (pageKey r va)
      if e.migrating then .wait
      else if e.dev then .here (redirect s (e.phys + (va - r.base * 4096) % 65536))
      else if (freePage s n).isSome then .wait else hostDest s n (hostAddr r va) r.pv r.pasid

/-- The host page that an access needs translated: its bus address, and PASID (R156, R170). -/
def hostPageOf (s : State) (n va : Nat) (write : Bool) : Option (Nat × Bool × Nat) :=
  let p := partOf s n
  if va ≥ 2 ^ 52 then none
  else match findRange p va with
  | none => none
  | some r =>
    let e := tabGet {} p.residence (pageKey r va)
    if !(if write then r.w else r.r) || r.kind = 1 || (r.kind = 3 && (!isHomePart p || e.dev)) then none
    else some (hostAddr r va, r.pv, r.pasid)

/-- Pages of MIGRATABLE ranges of a partition whose host page meets a span of host addresses: their keys. -/
def hostPages (s : State) (n lo hi : Nat) : List Nat :=
  (partOf s n).ranges.flatMap (fun r =>
    if r.kind ≠ 3 then []
    else ((List.range ((r.len + 15) / 16)).filter (fun i => decide (r.hostBase + i * 65536 < hi) && decide (lo < r.hostBase + i * 65536 + 65536))).map
      (fun i => r.base + 16 * i))

/-- A page marked MIGRATING or not (R170). -/
def markPages (s : State) (n : Nat) (keys : List Nat) (m : Bool) : State :=
  modPart s n (fun p => { p with residence := keys.foldl (fun t k => tabMod {} t k (fun e => if e.dev then e else { e with migrating := m })) p.residence })

-- faults and page requests (R166, R169)

/-- Two faults on one page: one entry of the fault queue stands for a 64 KiB page of a function and PASID (R166). -/
def samePage (x y : FaultEntry) : Bool := x.fn == y.fn && x.pasid == y.pasid && x.page == y.page

/-- A fault joins the entry of its page. -/
def joinFault (w : FaultEntry) (l : List FaultEntry) : List FaultEntry :=
  l.map (fun x => if samePage x w then { x with holders := x.holders ++ w.holders.filter (fun h => !x.holders.contains h) } else x)

/-- The Page Request Group of an entry: 16 page requests, the last with its Last flag (R166). -/
def pageGroup (x : FaultEntry) : List PageReq :=
  (List.range 16).map (fun i => { port := x.port, fn := x.fn, pasid := x.pasid, page := 16 * x.page + i, last := i == 15 })

/-- Page Request Groups sent for entries that have none yet, in arrival order, as far as the host's allocation to each function goes (R166). -/
def sendGroups (alloc : Nat → Nat → Nat) : List FaultEntry → List FaultEntry → List FaultEntry × List PageReq
  | done, [] => (done, [])
  | done, x :: xs =>
    if x.sent then sendGroups alloc (done ++ [x]) xs
    else if ((done ++ xs).filter (fun y => y.sent && y.fn == x.fn && y.port == x.port)).length < alloc x.port x.fn then
      let r := sendGroups alloc (done ++ [{ x with sent := true }]) xs
      (r.1, pageGroup x ++ r.2)
    else sendGroups alloc (done ++ [x]) xs

/-- Waiting faults take the free entries in arrival order; one whose page has an entry joins it (R166, R169), with fuel. -/
def admitFaults : Nat → Sur → Sur
  | 0, u => u
  | k + 1, u =>
    match u.waiting with
    | [] => u
    | w :: ws =>
      if u.faultQ.any (samePage w) then admitFaults k { u with waiting := ws, faultQ := joinFault w u.faultQ }
      else if u.faultQ.length < 256 then admitFaults k { u with waiting := ws, faultQ := u.faultQ ++ [w] }
      else u

/-- The fault queue takes what it has room for, and page requests go out (R166, R169). -/
def settleFaults (s : State) : State :=
  let u := admitFaults s.sur.waiting.length s.sur
  let r := sendGroups (fun p f => tabGet 0 (portOf s p).ats f - 1) [] u.faultQ
  { s with sur := { u with faultQ := r.1, requests := u.requests ++ r.2 } }

/-- A host access without a translation (R166, R167, R169): its fault joins the entry of its page, takes a new one, or waits while the queue is full.
Pages of MIGRATABLE ranges are MIGRATING till it ends (R170). -/
def hostFault (s : State) (x : FaultEntry) : State :=
  let s := markPages s (x.fn - 1) (hostPages s (x.fn - 1) (x.page * 65536) (x.page * 65536 + 65536)) true
  if s.sur.faultQ.any (samePage x) then { s with sur := { s.sur with faultQ := joinFault x s.sur.faultQ } }
  else if s.sur.waiting.any (samePage x) then { s with sur := { s.sur with waiting := joinFault x s.sur.waiting } }
  else if s.sur.waiting.isEmpty && decide (s.sur.faultQ.length < 256) then settleFaults { s with sur := { s.sur with faultQ := s.sur.faultQ ++ [x] } }
  else
    let s := { s with sur := { s.sur with waiting := s.sur.waiting ++ [x], overflow := true } }
    event s 2 1 2 0 7 x.port (some (x.fn - 1)) none [0, BitVec.ofNat 64 (x.page * 65536), 0]

/-- One more entry in a cache of `cap` entries; a full one loses one (R161, R164: which is not architectural). -/
def cachePut {α : Type} (cap key : Nat) (l : List α) (x : α) : List α :=
  (if l.length < cap then l else l.eraseIdx (Config.cacheEntry key % l.length)) ++ [x]

/-- A Translation Request for a host page that has no translation, and the host's answer (R163, R164, R166): an entry for the span granted, or a fault
that transfer `h` holds for. -/
def askHost (s : State) (n : Nat) (h : Nat × Nat) (addr : Nat) (pv : Bool) (pasid : Nat) : State :=
  match hostFunc s n with
  | none => s
  | some f =>
    let tag := pasidTag pv pasid
    let page := addr / 4096
    let x : FaultEntry := { port := portFor s f, fn := atsFn f, pasid := tag, page := page / 16, holders := [h] }
    if !atsOn s f || (atcFind s f tag page).isSome then s
    else if (s.sur.faultQ ++ s.sur.waiting).any (samePage x) then hostFault s x
    else
      let g := Config.hostGrant s.draws [x.port, x.fn, tag, page]
      let s := (draw s).2
      if g.1 = 0 then hostFault s x
      else
        let k := 2 ^ Nat.min (g.1 - 1) 18
        let e : AtcEntry := { port := x.port, fn := x.fn, pasid := tag, page := page / k * k, pages := k, to_ := g.2 / k * k }
        { s with sur := { s.sur with atc := cachePut 4096 page s.sur.atc e } }

/-- Starts of the 4 KiB pieces of a span. -/
def pageStarts (va len : Nat) : List Nat :=
  if len = 0 then [] else (List.range ((va + len + 4095) / 4096 - va / 4096)).map (fun i => if i = 0 then va else (va / 4096 + i) * 4096)

-- range caches (R161, R162)

/-- The compute die whose range cache a master translates through (R161). Masters outside the module use die 0's (DESIGN CHOICE, log 157). -/
def dieOf : Master → Nat
  | .core c => c / 256
  | .dispatch d => d % 4
  | .copy i => i / 2
  | .coll i => i % 2
  | .cp d => d
  | _ => 0

/-- A lookup in a master's range cache: a miss walks the table and fills an entry (R161). -/
def fillRange (s : State) (m : Master) (n va : Nat) : State :=
  match findRange (partOf s n) va with
  | none => s
  | some r =>
    let l := tabGet [] s.sur.rcache (dieOf m)
    if l.any (fun x => x.1 == n && x.2.base == r.base) then s
    else { s with sur := { s.sur with rcache := tabSet [] s.sur.rcache (dieOf m) (cachePut 512 va l (n, r)) } }

/-- Every range cache drops a partition's entries that satisfy a test (R162). -/
def dropCached (s : State) (n : Nat) (p : Range → Bool) : State :=
  { s with sur := { s.sur with rcache := tabOf [] (tabMapV (fun _ l => l.filter (fun x => !(x.1 == n && p x.2))) s.sur.rcache) } }

/-- The translation of a span for a master (R155, R161, R163): its range cache looks each page's range up, and host pages are translated by the host.
`h` is the transfer that holds where the host gives no access. -/
def translateSpan (s : State) (m : Master) (n va len : Nat) (write : Bool) (h : Nat × Nat) : State :=
  (pageStarts va len).foldl (fun s a =>
    let s := fillRange s m n a
    match hostPageOf s n a write with
    | some (addr, pv, pasid) => askHost s n h addr pv pasid
    | none => s) s

-- stack lines, poison, plain reads and writes

/-- Line metadata where nothing has been written: version 1, all else zero (R138, R147; log 4). -/
def freshMeta : BitVec 16 := 0x1000#16
def lineMeta (s : State) (line : Nat) : BitVec 16 := tabGet freshMeta s.lmeta line
/-- Metadata fields (R138). -/
def metaOf (keygen : Nat) (world poison : Bool) : BitVec 16 := BitVec.ofNat 16 (0x1000 + keygen * 4 + b2n world * 2 + b2n poison)

def isStack (pa : Nat) : Bool := decide (pa < 384 * 0x80000000)

/-- Some line or word of the span is poisoned (R126, R141). -/
def memPoisoned (s : State) (pa len : Nat) : Bool :=
  if isStack pa then (List.range ((pa + len + 127) / 128 - pa / 128)).any (fun i => (lineMeta s (pa / 128 + i)).getLsbD 0)
  else (List.range ((pa + len + 63) / 64 - pa / 64)).any (fun i => tabGet false s.poison (pa / 64 + i))

/-- Metadata after a write of `len` bytes at `pa` (R138, R139): a line written whole gets fresh metadata; a line written in part keeps a
poison it has. -/
def metaAfter (t : Tab (BitVec 16)) (pa len keygen : Nat) (world bad : Bool) : Tab (BitVec 16) :=
  (List.range ((pa + len + 127) / 128 - pa / 128)).foldl (fun t i =>
    let l := pa / 128 + i
    let whole := decide (pa ≤ 128 * l) && decide (128 * l + 128 ≤ pa + len)
    let old := (tabGet freshMeta t l).getLsbD 0
    tabSet freshMeta t l (metaOf keygen world (bad || (old && !whole)))) t

/-- Poison bits of 64-byte words after a write (R126; a word written in part keeps a poison it has, DEDUCED, log 15). -/
def wordsAfter (t : Tab Bool) (pa len : Nat) (bad : Bool) : Tab Bool :=
  (List.range ((pa + len + 63) / 64 - pa / 64)).foldl (fun t i =>
    let w := pa / 64 + i
    let whole := decide (pa ≤ 64 * w) && decide (64 * w + 64 ≤ pa + len)
    tabSet false t w (bad || (tabGet false t w && !whole))) t

-- the LLM cache (R129–R132)

/-- The compute die that owns a line's stack (R129). -/
def homeDie (line : Nat) : Nat := line * 128 / (96 * 0x80000000)

/-- The cache in which a line lies: the partition that owns it, and the sets of its cache granules on the line's home die (R129, R130). -/
def cacheOf (s : State) (line : Nat) : Option (Nat × Nat) :=
  if !isStack (line * 128) then none
  else match ownerOf s (line * 128) with
    | none => none
    | some n =>
      let k := (tabKeys (fun i g => g.valid && g.cache && g.part == n && i / 128 == homeDie line) s.granules).length
      if k = 0 then none else some (n, 512 * k)

/-- The LLM holds a line. -/
def cached (s : State) (line : Nat) : Bool := (tabGet none s.cache line).isSome

/-- A request enters a channel's queue (R409, R410). -/
def chargeChan (s : State) (g cls lines : Nat) (urgent : Option Nat) : State :=
  if lines = 0 then s else modChan s g (fun c => { c with reqs := c.reqs ++ [{ cls, urgent, lines }] })

/-- A line leaves the cache: one that was written goes to its stack, in class 7 (R130, R409); of any other, what the stack holds is what is left. -/
def evictLine (s : State) (line : Nat) : State :=
  match tabGet none s.cache line with
  | none => s
  | some e =>
    let s := { s with cache := tabDel s.cache line }
    if e.dirty then chargeChan s (line * 128 / 0x80000000) 7 1 none
    else { s with mem := tabPut s.mem (line * 128) e.stack, lmeta := tabSet freshMeta s.lmeta line e.stackMeta }

/-- The lines held in a line's set (R130). -/
def sameSet (s : State) (line n sets : Nat) : List Nat :=
  tabKeys (fun l _ => homeDie l == homeDie line && ownerOf s (l * 128) == some n && Config.cacheSet l % sets == Config.cacheSet line % sets) s.cache

/-- A line allocated on a read or a write, where its partition has a cache on its home die; a full set of 16 gives one up (R129, R130). -/
def fillLine (s : State) (line : Nat) : State :=
  match cacheOf s line with
  | none => s
  | some (n, sets) =>
    if cached s line then s
    else
      let l := sameSet s line n sets
      let s := if l.length < 16 then s else evictLine s (l.getD (Config.cacheVictim line l % l.length) 0)
      { s with cache := tabSet none s.cache line (some ⟨false, tabBytes s.mem (line * 128) 128, lineMeta s line⟩) }

/-- A held line that has been written. -/
def dirtyLine (s : State) (line : Nat) : State :=
  match tabGet none s.cache line with
  | none => s
  | some e => { s with cache := tabSet none s.cache line (some { e with dirty := true }) }

/-- The lines of a physical span. -/
def linesOf (pa len : Nat) : List Nat := (List.range ((pa + len + 127) / 128 - pa / 128)).map (· + pa / 128)

/-- A write passes through the cache (R129, R130). -/
def cacheWrite (s : State) (pa len : Nat) : State := (linesOf pa len).foldl (fun s l => dirtyLine (fillLine s l) l) s

/-- A partition's whole cache on a die written back and invalidated (R132). -/
def flushCache (s : State) (n d : Nat) : State :=
  (tabKeys (fun l _ => homeDie l == d && ownerOf s (l * 128) == some n) s.cache).foldl evictLine s

/-- The held lines of a span leave the cache (R144, R178). -/
def flushSpan (s : State) (pa len : Nat) : State := (tabKeys (fun l _ => decide (pa ≤ l * 128) && decide (l * 128 < pa + len)) s.cache).foldl evictLine s

/-- The held lines of a span are dropped, with what was written to them. -/
def dropLines (s : State) (pa len : Nat) : State := { s with cache := s.cache.filter (fun x => !(decide (pa ≤ x.1 * 128) && decide (x.1 * 128 < pa + len))) }

/-- What a stack holds of a line is looked at, or changed, beneath the cache: the accesses of R131. -/
def beneath {α : Type} (s : State) (line : Nat) (f : State → State × α) : State × α :=
  match tabGet none s.cache line with
  | none => f s
  | some e =>
    let r := f { s with mem := tabPut s.mem (line * 128) e.stack, lmeta := tabSet freshMeta s.lmeta line e.stackMeta }
    ({ r.1 with
      cache := tabSet none r.1.cache line (some { e with stack := tabBytes r.1.mem (line * 128) 128, stackMeta := lineMeta r.1 line })
      mem := tabPut r.1.mem (line * 128) (tabBytes s.mem (line * 128) 128)
      lmeta := tabSet freshMeta r.1.lmeta line (lineMeta s line) }, r.2)

/-- A write of bytes at a physical address for partition `n`; `bad` marks data that was read as poisoned. An empty write changes nothing. -/
def memWrite (s : State) (n pa : Nat) (bs : List Byte) (bad : Bool) : State :=
  if bs = [] then s
  else
    let world := (legendAt s pa).world
    if isStack pa then
      let s := cacheWrite s pa bs.length
      { s with mem := tabPut s.mem pa bs, lmeta := metaAfter s.lmeta pa bs.length (partOf s n).keys.newest world bad }
    else { s with mem := tabPut s.mem pa bs, poison := wordsAfter s.poison pa bs.length bad }

/-- Every byte of a physical span zero, with fresh metadata and no poison, and no cached copy left (R132, R147). -/
def clearSpan (s : State) (pa len : Nat) : State :=
  { s with
    mem := s.mem.filter (fun x => !(decide (pa ≤ x.1) && decide (x.1 < pa + len)))
    poison := s.poison.filter (fun x => !(decide (pa ≤ x.1 * 64) && decide (x.1 * 64 < pa + len)))
    lmeta := s.lmeta.filter (fun x => !(decide (pa ≤ x.1 * 128) && decide (x.1 * 128 < pa + len)))
    cache := s.cache.filter (fun x => !(decide (pa ≤ x.1 * 128) && decide (x.1 * 128 < pa + len))) }

/-- One 128-byte line copied, with its poison. -/
def copyLine (s : State) (n src dst : Nat) : State := memWrite s n dst (tabBytes s.mem src 128) (memPoisoned s src 128)

/-- Pages of 4 KiB copied from one physical span to another, both through their channels' redirect tables (R178, R179). -/
def copyPages (n src dst pages : Nat) (s : State) : State :=
  (List.range (32 * pages)).foldl (fun s i => copyLine s n (redirect s (src + 128 * i)) (redirect s (dst + 128 * i))) s

-- device virtual spans

/-- The result of reading a span of device virtual addresses. -/
inductive ReadRes where
  | ok (bs : List Byte)
  | fault
  | poison
  | wait
  /-- refused with an alarm -/
  | alarm (code : Nat)
  deriving DecidableEq, Repr

-- speculation domains (R204)

/-- The stored graphs whose speculation domain holds a range: their pools and domain ranges. -/
def domainGraphs (p : Part) (base : Nat) : List Nat :=
  tabKeys (fun _ g => g.versions.any (fun v => match v.gen with | some b => b.pools.contains base || b.domains.contains base | none => false)) p.graphs

/-- The domain handles of a graph. -/
def domainHandles (p : Part) (h : Nat) : List Nat :=
  (tabGet {} p.graphs h).versions.flatMap (fun v => match v.gen with | some b => b.handles | none => [])

/-- A task's access is shut out by R204: `g` is the graph whose step it belongs to, 0 for none. -/
def taskShut (p : Part) (g va len : Nat) (write : Bool) : Bool :=
  (pageStarts va len).any (fun a => match findRange p a with
    | none => false
    | some r => match domainGraphs p r.base with
      | [] => write && g != 0
      | hs => !hs.contains g)

/-- An access of a master other than a core is shut out of a domain (R204). Tasks are checked with their transfer. The sequencer acts for the domain's
steps, and a request from another module was checked there. A dispatch engine names the graph for whose step it works, engine + 4 × graph, and a
collective engine the handle, engine + 2 × (handle + 1). -/
def masterShut (p : Part) (m : Master) (va : Nat) : Bool :=
  match findRange p va with
  | none => false
  | some r => match domainGraphs p r.base with
    | [] => false
    | hs => match m with
      | .core _ => false
      | .dispatch d => !hs.contains (d / 4)
      | .ss => false
      | .remote _ => false
      | .sp => false
      | .coll i => i < 2 || !hs.any (fun h => (domainHandles p h).contains (i / 2 - 1))
      | _ => true

/-- One byte read for a master: from this module's memory, or from what the outside returned (`ext`). -/
def readByte (s : State) (m : Master) (n va : Nat) (ext : Byte) : ReadRes :=
  if masterShut (partOf s n) m va then .fault
  else match translate s n va false with
  | .fault => .fault
  | .wait => .wait
  | .host _ _ _ => .ok [ext]
  | .there _ _ => .ok [ext]
  | .here pa =>
    match checkAccess s m n pa false with
    | .ok =>
      if memPoisoned s pa 1 then (if (rangeAt s pa backed).isSome then .wait else .poison)
      else if isStack pa && (lineMeta s (pa / 128)).getLsbD 1 && !accessSecure s m n then .alarm 2
      else .ok [tabGet 0#8 s.mem pa]
    | .fault => .fault
    | .alarm c => .alarm c

/-- A span read byte by byte; the first byte that does not succeed decides. -/
def readSpan (s : State) (m : Master) (n : Nat) : Nat → Nat → List Byte → ReadRes
  | _, 0, _ => .ok []
  | va, len + 1, ext =>
    match readByte s m n va (ext.headD 0#8) with
    | .ok b =>
      match readSpan s m n (va + 1) len ext.tail with
      | .ok bs => .ok (b ++ bs)
      | r => r
    | r => r

/-- Bytes of a physically contiguous span from `va` on: up to the end of its 4 KiB page, or of a page of the host. -/
def spanPiece (va len : Nat) : Nat := Nat.min len (4096 - va % 4096)

/-- Whether every byte of a span can be written by a master: `none` when it can, otherwise what refuses it. Permissions and placement are
those of its 4 KiB pages. -/
def writeRefused (s : State) (m : Master) (n va len : Nat) : Option ReadRes :=
  (pageStarts va len).findSome? (fun a =>
    if masterShut (partOf s n) m a then some .fault
    else match translate s n a true with
    | .fault => some .fault
    | .wait => some .wait
    | .here pa => (match checkAccess s m n pa true with | .ok => none | .fault => some .fault | .alarm c => some (.alarm c))
    | _ => none)

/-- The module of the front partition (R264). -/
def frontModule (vd : Vd) : Nat := ((vd.members.find? (fun x => x.rank == vd.frontRank)).map (·.modId)).getD 0

/-- A posted write of data to a HOST or MIGRATABLE range's memory, under the range's PASID (R163, R455). -/
def hostData (s : State) (f addr : Nat) (data : List Byte) (pv : Bool) (pasid : Nat) (bad : Bool) : State :=
  { s with hostOut := s.hostOut ++ [{ hostWrite s f addr data with pasid := if pv then some pasid else none, translated := atsOn s f, bad }] }

/-- A write that leaves this module: over the fabric to another module, or to host memory through a VF or the front module (R308, R455). -/
def writeOut (s : State) (n va : Nat) (d : Dest) (bs : List Byte) (bad : Bool) : State :=
  let vd := (partOf s n).vd
  match d with
  | .there mid _ => sendPacket s (mkPacket s 0x02 mid vd.vdid vd.edition 0 0 false (BitVec.ofNat 64 va) bs)
  | .host addr pv pasid =>
    match hostFunc s n with
    | some f => hostData s f addr bs pv pasid bad
    | none => sendPacket s (mkPacket s 0x02 (frontModule vd) vd.vdid vd.edition 0 0 false (BitVec.ofNat 64 va) bs)
  | _ => s

/-- The spill page of a retired page as it goes to host memory: 64 KiB sealed, with its seal of 32 bytes (R179, R362; DESIGN CHOICE, log 159). -/
def spillOut (s : State) (n pa : Nat) : State :=
  if pa < spillBase then s
  else
    let (d, s) := draw s
    hostBulk s ((hostFunc s n).getD n) (Config.spillPage (pa / 65536 * 65536)) ((List.range (65536 + 32)).map (Config.freeByte d))

/-- Where a write to bytes that a move has already copied goes as well (R178 step 3). -/
def moveCopy (s : State) (n pa : Nat) : Option Nat :=
  s.sur.moves.findSome? (fun m => if m.n ≠ n then none else (partOf s n).ranges.findSome? (fun r =>
    let t := r.targets.getD m.slot (0, false, 0)
    let src := targetPa t.1 t.2.2 + r.offset * 4096
    let a := unredirect s pa
    if r.base = m.base && src ≤ a && a < src + Nat.min (m.steps * 65536) (r.len / r.n * 4096) then some (redirect s (chanPa m.dest + r.offset * 4096 + (a - src))) else none))

/-- Bytes of a range that goes to another module, sent there over VC3 under their device virtual address (R178): `page` marks a page of the copy, `bad`
bytes that are poisoned (layout of log 33). -/
def sendPiece (s : State) (n m va : Nat) (bs : List Byte) (page bad : Bool) : State :=
  let vd := (partOf s n).vd
  sendPacket s (mkPacket s 0x05 m vd.vdid vd.edition 0 0 false (BitVec.ofNat 64 (2 ^ 63 + b2n bad * 2 ^ 62 + b2n page * 2 ^ 61 + va)) bs)

/-- Where a write to a range that is being copied to another module goes as well (R178 step 3): that module, and the address there. -/
def awayCopy (s : State) (n pa : Nat) : Option (Nat × Nat) :=
  (partOf s n).aways.findSome? (fun a => if !a.copying then none else (partOf s n).ranges.findSome? (fun r =>
    if r.base ≠ a.base then none else match a.to_, vaOfPa r (unredirect s pa) with | some m, some va => some (m, va) | _, _ => none))

/-- A write at a physical address of a mapped range: of a target slot or a range being moved, at both places (R178); of a page with a spill page, in host
memory (R179). -/
def writeHere (s : State) (n pa : Nat) (bs : List Byte) (bad : Bool) : State :=
  let s := match moveCopy s n pa with | some b => memWrite s n b bs bad | none => s
  let s := match awayCopy s n pa with | some (m, va) => sendPiece s n m va bs false bad | none => s
  spillOut (memWrite s n pa bs bad) n pa

/-- A write of consecutive bytes to a device virtual span, page by page, with fuel for the pages; refused pages are left. -/
def writePages (n : Nat) (bad : Bool) : Nat → State → Nat → List Byte → State
  | 0, s, _, _ => s
  | _, s, _, [] => s
  | k + 1, s, va, bs =>
    let c := spanPiece va bs.length
    let s := match translate s n va true with
      | .here pa => writeHere s n pa (bs.take c) bad
      | d => writeOut s n va d (bs.take c) bad
    writePages n bad k s (va + c) (bs.drop c)

/-- A read by an engine of what its work names: the translation is asked for first, and `h` holds where the host gives none (R155, R167). -/
def engineRead (s : State) (m : Master) (h : Nat × Nat) (n va len : Nat) (ext : List Byte) : State × ReadRes :=
  let s := translateSpan s m n va len false h
  (s, readSpan s m n va len ext)

/-- A write of a span that nothing refuses. -/
def writeSpan (s : State) (n va : Nat) (bs : List Byte) (bad : Bool) : State :=
  writePages n bad (bs.length / 4096 + 2) s va bs

-- traffic at the stack channels (R409–R411)

/-- The traffic class of a master's requests (R409). A request of another module counts as a core's (log 60). -/
def classOf : Master → Nat
  | .core _ => 2
  | .dispatch _ => 3
  | .copy _ => 4
  | .coll _ => 6
  | .ss => 5
  | .me => 1
  | .cp _ => 0
  | .mp => 0
  | .sp => 0
  | .remote _ => 2
  | .host _ _ => 2

/-- Line slots that a piece of a span needs once the cache has served what it holds: a read of a held line needs none; a write of one needs none, nor
does a write of a whole line that is then allocated; a line written in part is allocated with a fill (R129, R130, R133). -/
def pieceSlots (s : State) (pa k : Nat) (write : Bool) : Nat :=
  ((linesOf pa k).map (fun l =>
    let whole := decide (pa ≤ 128 * l) && decide (128 * l + 128 ≤ pa + k)
    if cached s l then 0
    else if (cacheOf s l).isSome then (if write && whole then 0 else 1)
    else if write && !whole then 2 else 1)).sum

/-- Requests of a master enter the channels that hold a span, and the lines are allocated in the cache (R129, R130, R409–R411): urgent where they arrived
over a link whose urgency wire is asserted. -/
def chargeLines (s : State) (m : Master) (n va len : Nat) (write : Bool) : State :=
  let urgent := match m with | .remote _ => s.fab.via.filter (fun k => (linkOf s k).urg) | _ => none
  (pageStarts va len).foldl (fun s a =>
    let k := Nat.min (4096 - a % 4096) (va + len - a)
    match translate s n a write with
    | .here pa => (match regionOf pa with
      | .stack g => (linesOf pa k).foldl fillLine (chargeChan s g (classOf m) (pieceSlots s pa k write) urgent)
      | _ => s)
    | _ => s) s

end Sys2Proof.Machine
end

