-- ==== Sys2Proof/Machine/Float.lean ====
section
/-! DEFINITION. Element formats, exact values and the one rounding function: R36–R48. Values are dyadic rationals, computed exactly and narrowed once. -/

namespace Sys2Proof.Machine

/-- An exact finite value (−1)^neg × mant × 2^exp; zero keeps its sign. -/
structure Dy where
  neg : Bool
  mant : Nat
  exp : Int
  deriving DecidableEq, Repr

/-- A decoded element: NaN, an infinity or an exact finite value (R36). -/
inductive Val where
  | nan
  | inf (neg : Bool)
  | fin (d : Dy)
  deriving DecidableEq, Repr

/-- Sticky arithmetic flags of R48. -/
structure Flg where
  nv : Bool := false
  ovf : Bool := false
  unf : Bool := false
  deriving DecidableEq, Repr

/-- Both sets of flags raised. -/
def flgOr (a b : Flg) : Flg := ⟨a.nv || b.nv, a.ovf || b.ovf, a.unf || b.unf⟩

/-- Format codes of R72, as the instructions carry them. -/
abbrev fFP32 : Nat := 0
abbrev fBF16 : Nat := 1
abbrev fFP16 : Nat := 2
abbrev fE4M3 : Nat := 3
abbrev fE5M2 : Nat := 4
abbrev fE3M2 : Nat := 5
abbrev fE2M3 : Nat := 6
abbrev fE2M1 : Nat := 7
abbrev fINT8 : Nat := 8
abbrev fINT4 : Nat := 9
abbrev fLG4 : Nat := 10
abbrev fINT32 : Nat := 11
abbrev fINT16 : Nat := 12

/-- Bits of one element of a format. -/
def fmtBits : Nat → Nat
  | 0 => 32 | 1 => 16 | 2 => 16 | 3 => 8 | 4 => 8 | 5 => 6 | 6 => 6 | 7 => 4 | 8 => 8 | 9 => 4 | 10 => 4 | 11 => 32 | _ => 16

/-- The floating-point formats (R36). -/
def fmtFloat (f : Nat) : Bool := f < 8
/-- The integer formats. -/
def fmtInt (f : Nat) : Bool := f = 8 || f = 9 || f = 11 || f = 12
/-- Register types of VCVT (R72); the others are packed types. -/
def fmtReg (f : Nat) : Bool := f = 0 || f = 1 || f = 2 || f = 11 || f = 12

/-- Mantissa bits of a floating-point format (R36). -/
def fmtM : Nat → Nat
  | 0 => 23 | 1 => 7 | 2 => 10 | 3 => 3 | 4 => 2 | 5 => 2 | 6 => 3 | _ => 1
/-- Exponent bias (R36). -/
def fmtBias : Nat → Nat
  | 0 => 127 | 1 => 127 | 2 => 15 | 3 => 7 | 4 => 15 | 5 => 3 | 6 => 1 | _ => 1
/-- The code of the largest finite magnitude (R36). -/
def fmtMax : Nat → Nat
  | 0 => 0x7F7FFFFF | 1 => 0x7F7F | 2 => 0x7BFF | 3 => 0x7E | 4 => 0x7B | 5 => 0x1F | 6 => 0x1F | _ => 0x7
/-- The code of +Inf, for the formats that have one (R36). -/
def fmtInf : Nat → Option Nat
  | 0 => some 0x7F800000 | 1 => some 0x7F80 | 2 => some 0x7C00 | 4 => some 0x7C | _ => none
/-- The canonical NaN of a format, for the formats that have one (R38). -/
def fmtNaN : Nat → Option Nat
  | 0 => some 0x7FC00000 | 1 => some 0x7FC0 | 2 => some 0x7E00 | 3 => some 0x7F | 4 => some 0x7E | _ => none

/-- The decoded value of a floating-point code (R36). -/
def decodeFloat (f code : Nat) : Val :=
  let w := fmtBits f
  let c := code % 2 ^ w
  let neg := bitOf c (w - 1)
  let mag := c % 2 ^ (w - 1)
  let m := fmtM f
  let e := mag / 2 ^ m
  let fr := mag % 2 ^ m
  if mag > fmtMax f then
    (if fmtInf f = some mag then .inf neg else .nan)
  else if e = 0 then .fin ⟨neg, fr, 1 - (fmtBias f : Int) - m⟩
  else .fin ⟨neg, 2 ^ m + fr, (e : Int) - fmtBias f - m⟩

/-- The value of an LG4 code without its scales (R42); c = 0 is zero whatever the sign, read as +0 (DEDUCED, log 81). -/
def decodeLg4 (code : Nat) : Dy :=
  let c := code % 8
  if c = 0 then ⟨false, 0, 0⟩ else ⟨bitOf code 3, 1, (c : Int) - 7⟩

/-- The value of a code of any element format (R36, R42). -/
def decodeElem (f code : Nat) : Val :=
  if fmtInt f then
    let i := signed (fmtBits f) code
    .fin ⟨decide (i < 0), i.natAbs, 0⟩
  else if f = 10 then .fin (decodeLg4 code)
  else decodeFloat f code

/-- floor(log2 |d|) of a non-zero exact value. -/
def dyLead (d : Dy) : Int := (Nat.log2 d.mant : Int) + d.exp

/-- |d| in units of 2^u, rounded: the quotient, and whether it was inexact. `rtz` truncates; otherwise ties go to even. -/
def roundUnits (rtz : Bool) (d : Dy) (u : Int) : Nat × Bool :=
  let sh := u - d.exp
  if sh ≤ 0 then (d.mant * 2 ^ (-sh).toNat, false)
  else
    let k := sh.toNat
    let q := d.mant / 2 ^ k
    let r := d.mant % 2 ^ k
    if r = 0 then (q, false)
    else if rtz then (q, true)
    else
      let half := 2 ^ (k - 1)
      (if r > half || (r = half && q % 2 = 1) then q + 1 else q, true)

/-- A magnitude code and what its rounding met. -/
structure Rounded where
  mag : Nat
  inexact : Bool
  overs : Bool
  deriving DecidableEq, Repr

/-- Rounding of an exact value to the magnitude codes of a floating-point format, with gradual underflow (R37, R46). -/
def roundMag (f : Nat) (rtz : Bool) (d : Dy) : Rounded :=
  if d.mant = 0 then ⟨0, false, false⟩
  else
    let m := fmtM f
    let emin : Int := 1 - (fmtBias f : Int)
    let lead := dyLead d
    let u : Int := (if lead < emin then emin else lead) - m
    let (q, ix) := roundUnits rtz d u
    -- q units of 2^u: below 2^m only in the subnormal range, where u is the smallest unit
    let code : Nat := if q < 2 ^ m then q else ((u + m + fmtBias f - 1).toNat) * 2 ^ m + q
    ⟨code, ix, decide (code > fmtMax f)⟩

/-- The code with its sign placed. -/
def withSign (f : Nat) (neg : Bool) (mag : Nat) : Nat := mag + (if neg then 2 ^ (fmtBits f - 1) else 0)

/-- Narrowing of a value to a floating-point format (R46, R47), with the flags of R48 (DEDUCED, log 88). -/
def toFloat (f : Nat) (rtz sat : Bool) (v : Val) : Nat × Flg :=
  match v with
  | .nan =>
    match fmtNaN f with
    | some c => (c, {})
    | none => (0, { nv := true })
  | .inf neg =>
    if f = 3 then (if sat then (withSign f neg (fmtMax f), { ovf := true }) else (0x7F, { nv := true }))
    else match fmtInf f with
      | some c => (withSign f neg c, {})
      | none => (withSign f neg (fmtMax f), { ovf := true })
  | .fin d =>
    let r := roundMag f rtz d
    if r.overs then
      if f ≤ 2 then
        ((if rtz then withSign f d.neg (fmtMax f) else withSign f d.neg ((fmtInf f).getD 0)), { ovf := true })
      else if f = 3 then
        (if sat then (withSign f d.neg (fmtMax f), { ovf := true }) else (0x7F, { nv := true, ovf := true }))
      else if f = 4 then
        (if sat || rtz then (withSign f d.neg (fmtMax f), { ovf := true }) else (withSign f d.neg 0x7C, { ovf := true }))
      else (withSign f d.neg (fmtMax f), { ovf := true })
    else
      (withSign f d.neg r.mag, { unf := r.inexact && decide (r.mag < 2 ^ fmtM f) })

/-- Narrowing of a value to a two's complement format, clamped (R47, R48). -/
def toInt (f : Nat) (rtz : Bool) (v : Val) : Nat × Flg :=
  let w := fmtBits f
  let lo : Int := -(2 ^ (w - 1) : Nat)
  let hi : Int := (2 ^ (w - 1) : Nat) - 1
  match v with
  | .nan => (0, { nv := true })
  | .inf neg => (wrapNat w (if neg then lo else hi), { ovf := true })
  | .fin d =>
    let (q, _) := roundUnits rtz d 0
    let i : Int := if d.neg then -(q : Int) else q
    if i < lo then (wrapNat w lo, { ovf := true })
    else if i > hi then (wrapNat w hi, { ovf := true })
    else (wrapNat w i, {})

/-- Narrowing of a value to any element format but LG4 (R46–R48). -/
def toElem (f : Nat) (rtz sat : Bool) (v : Val) : Nat × Flg :=
  if fmtInt f then toInt f rtz v else toFloat f rtz sat v

/-- Exact sum of two finite values; the zero that two opposite values give is +0, and −0 only from two −0 (R54). -/
def dyAdd (a b : Dy) : Dy :=
  let e := if a.exp < b.exp then a.exp else b.exp
  let x : Int := (a.mant * 2 ^ (a.exp - e).toNat : Nat)
  let y : Int := (b.mant * 2 ^ (b.exp - e).toNat : Nat)
  let s := (if a.neg then -x else x) + (if b.neg then -y else y)
  if s = 0 then ⟨a.neg && b.neg && a.mant = 0 && b.mant = 0, 0, e⟩ else ⟨decide (s < 0), s.natAbs, e⟩

/-- Exact product of two finite values (R45). -/
def dyMul (a b : Dy) : Dy := ⟨a.neg != b.neg, a.mant * b.mant, a.exp + b.exp⟩

/-- Sum of two values before rounding; the flag tells a NaN produced from operands that are not NaN (R48). -/
def valAdd (a b : Val) : Val × Bool :=
  match a, b with
  | .nan, _ => (.nan, false)
  | _, .nan => (.nan, false)
  | .inf p, .inf q => if p = q then (.inf p, false) else (.nan, true)
  | .inf p, .fin _ => (.inf p, false)
  | .fin _, .inf q => (.inf q, false)
  | .fin x, .fin y => (.fin (dyAdd x y), false)

/-- The value with its sign changed. -/
def valNeg : Val → Val
  | .nan => .nan
  | .inf p => .inf (!p)
  | .fin d => .fin { d with neg := !d.neg }

/-- Product of two values before rounding (R45, R48). -/
def valMul (a b : Val) : Val × Bool :=
  match a, b with
  | .nan, _ => (.nan, false)
  | _, .nan => (.nan, false)
  | .inf p, .inf q => (.inf (p != q), false)
  | .inf p, .fin y => if y.mant = 0 then (.nan, true) else (.inf (p != y.neg), false)
  | .fin x, .inf q => if x.mant = 0 then (.nan, true) else (.inf (x.neg != q), false)
  | .fin x, .fin y => (.fin (dyMul x y), false)

/-- A result rounded once with RNE to a register float type, with its flags (R57, R48). -/
def fround (f : Nat) (r : Val × Bool) : Nat × Flg :=
  let (c, g) := toFloat f false true r.1
  (c, { g with nv := g.nv || r.2 })

/-- IEEE addition in a register float type (R57). -/
def fadd (f a b : Nat) : Nat × Flg := fround f (valAdd (decodeFloat f a) (decodeFloat f b))
/-- IEEE subtraction. -/
def fsub (f a b : Nat) : Nat × Flg := fround f (valAdd (decodeFloat f a) (valNeg (decodeFloat f b)))
/-- IEEE multiplication. -/
def fmul (f a b : Nat) : Nat × Flg := fround f (valMul (decodeFloat f a) (decodeFloat f b))
/-- IEEE fused multiply–add d + a × b with one rounding. -/
def ffma (f d a b : Nat) : Nat × Flg :=
  let p := valMul (decodeFloat f a) (decodeFloat f b)
  let s := valAdd (decodeFloat f d) p.1
  let nanIn := decodeFloat f d = .nan || decodeFloat f a = .nan || decodeFloat f b = .nan
  fround f (s.1, (p.2 || s.2) && !nanIn)

/-- Comparison of exact values, −0 equal to +0: less than. -/
def dyLt (a b : Dy) : Bool :=
  let s := dyAdd a { b with neg := !b.neg }
  s.neg && s.mant != 0

/-- a < b on values that are not NaN; infinities at the ends. -/
def valLt (a b : Val) : Bool :=
  match a, b with
  | .nan, _ => false
  | _, .nan => false
  | .inf p, .inf q => p && !q
  | .inf p, .fin _ => p
  | .fin _, .inf q => !q
  | .fin x, .fin y => dyLt x y

/-- The order of VMAX and VMIN: as valLt, with −0 below +0 (R71). -/
def valLtZ (a b : Val) : Bool :=
  match a, b with
  | .fin x, .fin y => if x.mant = 0 && y.mant = 0 then x.neg && !y.neg else dyLt x y
  | _, _ => valLt a b

/-- Maximum of two codes of a float type: the canonical NaN when either is NaN (R71). -/
def fmaxc (f a b : Nat) : Nat :=
  match decodeFloat f a, decodeFloat f b with
  | .nan, _ => (fmtNaN f).getD 0
  | _, .nan => (fmtNaN f).getD 0
  | x, y => if valLtZ x y then b else a

/-- Minimum of two codes of a float type (R71). -/
def fminc (f a b : Nat) : Nat :=
  match decodeFloat f a, decodeFloat f b with
  | .nan, _ => (fmtNaN f).getD 0
  | _, .nan => (fmtNaN f).getD 0
  | x, y => if valLtZ y x then b else a

/-- 1/x correctly rounded with RNE (R57); 1/±0 is ±Inf and 1/±Inf is ±0. The quotient carries a sticky bit far below
any rounding position. -/
def frcp (f a : Nat) : Nat × Flg :=
  match decodeFloat f a with
  | .nan => fround f (.nan, false)
  | .inf n => fround f (.fin ⟨n, 0, 0⟩, false)
  | .fin d =>
    if d.mant = 0 then fround f (.inf d.neg, false)
    else
      let q := 2 ^ 80 / d.mant
      let r := 2 ^ 80 % d.mant
      fround f (.fin ⟨d.neg, 2 * q + (if r = 0 then 0 else 1), -d.exp - 81⟩, false)

/-- Bit by bit integer square root: the largest r with r² ≤ n, over `k` result bits. -/
def isqrt : Nat → Nat → Nat → Nat
  | 0, _, r => r
  | k + 1, n, r => if (r + 2 ^ k) * (r + 2 ^ k) ≤ n then isqrt k n (r + 2 ^ k) else isqrt k n r

/-- Square root correctly rounded with RNE (R71); −0 gives −0, other negatives the canonical NaN with NV. -/
def fsqrt (f a : Nat) : Nat × Flg :=
  match decodeFloat f a with
  | .nan => fround f (.nan, false)
  | .inf n => if n then fround f (.nan, true) else fround f (.inf false, false)
  | .fin d =>
    if d.mant = 0 then fround f (.fin d, false)
    else if d.neg then fround f (.nan, true)
    else
      -- make the exponent even and give the root 80 bits
      let (m, e) := if d.exp % 2 = 0 then (d.mant, d.exp) else (2 * d.mant, d.exp - 1)
      let n := m * 2 ^ 160
      let r := isqrt 96 n 0
      fround f (.fin ⟨false, 2 * r + (if r * r = n then 0 else 1), e / 2 - 81⟩, false)

/-- Terms of the exponential series at fixed point 2^-512: the sum of x^k/k!, `n` further terms. -/
def expSeries : Nat → Nat → Nat → Nat → Nat → Nat
  | 0, _, _, _, acc => acc
  | n + 1, x, k, term, acc =>
    let t := term * x / (k * 2 ^ 512)
    expSeries n x (k + 1) t (acc + t)

/-- Repeated squaring at fixed point 2^-512. -/
def expSquares : Nat → Nat → Nat
  | 0, v => v
  | n + 1, v => expSquares n (v * v / 2 ^ 512)

/-- e^|x| at fixed point 2^-512, for |x| below 128 given at the same point. -/
def expFix (x : Nat) : Nat := expSquares 8 (expSeries 80 (x / 256) 1 (2 ^ 512) (2 ^ 512))

/-- The two neighbours of e^x in a float type, below and above, equal when exact (R57). An input of magnitude 128 or more
overflows or falls below every subnormal in each type that VEXP accepts. -/
def expNeighbours (f : Nat) (d : Dy) : Nat × Nat :=
  if d.mant = 0 then (((roundMag f false ⟨false, 1, 0⟩).mag), ((roundMag f false ⟨false, 1, 0⟩).mag))
  else if dyLead d ≥ 7 then
    (if d.neg then (0, 1) else ((fmtInf f).getD 0, (fmtInf f).getD 0))
  else
    let x := (roundUnits true ⟨false, d.mant, d.exp⟩ (-512)).1
    let e := expFix x
    let v : Dy := if d.neg then ⟨false, 2 * (2 ^ 1424 / e) + 1, 512 - 1425⟩ else ⟨false, 2 * e + 1, -513⟩
    let lo := (roundMag f true v).mag
    if lo > fmtMax f then ((fmtInf f).getD 0, (fmtInf f).getD 0) else (lo, lo + 1)

/-- Exponential: one of the two neighbours, by the opaque choice of Config (R57). -/
def fexp (f a : Nat) : Nat × Flg :=
  match decodeFloat f a with
  | .nan => fround f (.nan, false)
  | .inf n => if n then fround f (.fin ⟨false, 0, 0⟩, false) else fround f (.inf false, false)
  | .fin d =>
    let (lo, hi) := expNeighbours f d
    let c := if lo = hi then lo else if Config.expUp f a then hi else lo
    (c, { ovf := decide (c > fmtMax f), unf := decide (lo ≠ hi) && decide (c < 2 ^ fmtM f) })

end Sys2Proof.Machine
end

