-- ==== Sys2Proof/Machine/Reduce.lean ====
section
/-! DEFINITION. Canonical reduction: chunk_sum and the tree (R52–R57), and block conversions (R39–R42, R49, R50). -/

namespace Sys2Proof.Machine

/-- A term of a chunk: a value with the lead that the procedure gives it (R53). For a product the lead is the sum of the
factors' leads; a product Inf × 0 is `bad`. -/
inductive Term where
  | nan
  | bad
  | inf (neg : Bool)
  | fin (d : Dy) (lead : Int)
  deriving DecidableEq, Repr

/-- A collective or lane term (R53, R57): its own lead. -/
def termOf : Val → Term
  | .nan => .nan
  | .inf n => .inf n
  | .fin d => .fin d (if d.mant = 0 then 0 else dyLead d)

/-- An exact product as a term (R45, R53): lead(a) + lead(b). -/
def termMul (a b : Val) : Term :=
  match a, b with
  | .nan, _ => .nan
  | _, .nan => .nan
  | .fin x, .fin y => .fin (dyMul x y) (if x.mant = 0 || y.mant = 0 then 0 else dyLead x + dyLead y)
  | x, y => match (valMul x y).1 with
    | .inf n => .inf n
    | _ => .bad

/-- The terms that are not zero, as exact values with their leads. -/
def termNz : List Term → List (Dy × Int)
  | [] => []
  | .fin d l :: ts => if d.mant = 0 then termNz ts else (d, l) :: termNz ts
  | _ :: ts => termNz ts

/-- The signed accumulation of R53 in units of 2^u, each term truncated toward zero. -/
def accumulate (u : Int) : List (Dy × Int) → Int
  | [] => 0
  | (d, _) :: ts =>
    let q : Int := (roundUnits true d u).1
    (if d.neg then -q else q) + accumulate u ts

/-- chunk_sum (R53): the FP32 code and the flags NV and OF. -/
def chunkSum (ts : List Term) : Nat × Flg :=
  let pos := ts.any (fun t => t = .inf false)
  let neg := ts.any (fun t => t = .inf true)
  if ts.any (fun t => t = .nan || t = .bad) || (pos && neg) then (0x7FC00000, { nv := true })
  else if pos then (0x7F800000, {})
  else if neg then (0xFF800000, {})
  else
    match termNz ts with
    | [] => (0, {})
    | (d, l) :: nz =>
      let lead := nz.foldl (fun m t => if m < t.2 then t.2 else m) l
      let u := lead - 112
      let a := accumulate u ((d, l) :: nz)
      if a = 0 then (0, {})
      else
        let (c, g) := toFloat fFP32 false true (.fin ⟨decide (a < 0), a.natAbs, u⟩)
        if c % 2 ^ 31 = 0 then (0, {}) else (c, { ovf := g.ovf })

/-- One level of the tree (R54): neighbours added, the odd last node moved up. -/
def treeLevel : List Nat → List Nat × Flg
  | [] => ([], {})
  | [a] => ([a], {})
  | a :: b :: r =>
    let (c, g) := fadd fFP32 a b
    let (rest, h) := treeLevel r
    (c :: rest, flgOr { g with unf := false } h)

/-- The tree over chunk values (R54), with fuel for its levels. -/
def treeFuel : Nat → List Nat → Nat × Flg
  | _, [] => (0, {})
  | _, [a] => (a, {})
  | 0, a :: _ => (a, {})
  | n + 1, l =>
    let (l', g) := treeLevel l
    let (r, h) := treeFuel n l'
    (r, flgOr g h)

/-- tree(c[0..n−1]) (R54). -/
def tree (l : List Nat) : Nat × Flg := treeFuel l.length l

/-- Consecutive pieces of `k` elements, with fuel. -/
def piecesFuel {α : Type} (k : Nat) : Nat → List α → List (List α)
  | 0, _ => []
  | _, [] => []
  | n + 1, l => l.take k :: piecesFuel k n (l.drop k)

/-- The list cut into consecutive pieces of `k` elements. -/
def pieces {α : Type} (k : Nat) (l : List α) : List (List α) := piecesFuel k l.length l

/-- Canonical reduction of terms along the logical index: chunks of 512, chunk_sum, tree (R52–R54). -/
def canonical (ts : List Term) : Nat × Flg :=
  let cs := (pieces 512 ts).map chunkSum
  let (r, g) := tree (cs.map (·.1))
  (r, cs.foldl (fun a c => flgOr a c.2) g)

/-- The elements of a byte string packed as R39 lays down: `n` codes of `w` bits, least significant first. -/
def unpackCodes (w n : Nat) (bs : List Byte) : List Nat :=
  let v := bytesNat bs
  (List.range n).map (fun i => (v / 2 ^ (w * i)) % 2 ^ w)

/-- Bytes that `n` elements of `w` bits occupy: whole bytes, and whole groups of four for 6-bit elements (R39). -/
def packedBytes (w n : Nat) : Nat := if w = 6 then (n + 3) / 4 * 3 else (w * n + 7) / 8

/-- Codes packed into bytes, the unused positions of the last byte or group filled with zero codes (R39). -/
def packCodes (w : Nat) (cs : List Nat) : List Byte :=
  let v := cs.foldr (fun c a => c % 2 ^ w + 2 ^ w * a) 0
  natBytes (packedBytes w cs.length) v

/-- A value scaled by 2^k. -/
def valScale (k : Int) : Val → Val
  | .fin d => .fin { d with exp := d.exp + k }
  | v => v

/-- The element value under an E8M0 scale code; a NaN scale makes the element NaN (R40, R41). MXINT8 elements carry 2^−6. -/
def scaledElem (f code scale : Nat) : Val :=
  if scale = 0xFF then .nan
  else valScale ((scale : Int) - 127 + (if f = 8 then -6 else 0)) (decodeElem f code)

/-- The exponent of the largest element magnitude of a block format (R40). -/
def fmtEmax : Nat → Int
  | 3 => 8 | 4 => 15 | 5 => 4 | 6 => 2 | 7 => 2 | _ => 0

/-- |v| of a finite value. -/
def valMag : Val → Dy
  | .fin d => { d with neg := false }
  | _ => ⟨false, 0, 0⟩

/-- The largest magnitude among values (R49 step 1). -/
def amax (vs : List Val) : Dy :=
  vs.foldl (fun m v => if dyLt m (valMag v) then valMag v else m) ⟨false, 0, 0⟩

/-- An integer limited to a range. -/
def clampInt (lo hi x : Int) : Int := if x < lo then lo else if x > hi then hi else x

/-- The flags of a block that gets the NaN scale (R49): NV when it holds an Inf and no NaN. -/
def badBlockFlags (vs : List Val) : Flg :=
  { nv := !vs.any (fun v => v = .nan) }

/-- The block holds an Inf or a NaN. -/
def badBlock (vs : List Val) : Bool := vs.any (fun v => match v with | .fin _ => false | _ => true)

/-- Conversion of 32 values into an MX block (R49): scale code, element codes, flags. -/
def toMx (f : Nat) (rtz : Bool) (vs : List Val) : Nat × List Nat × Flg :=
  if badBlock vs then (0xFF, vs.map (fun _ => 0), badBlockFlags vs)
  else
    let a := amax vs
    if a.mant = 0 then (0, vs.map (fun _ => 0), {})
    else
      let x := clampInt (-127) 127 (dyLead a - fmtEmax f)
      let es := vs.map (fun v => toElem f rtz true (valScale (-x + (if f = 8 then 6 else 0)) v))
      ((x + 127).toNat, es.map (·.1), es.foldl (fun g e => flgOr g e.2) {})

/-- The LG4 exponent code nearest in linear value to |v| / 2^x, ties to the smaller magnitude (R50 step 3) (DEDUCED, log 89). Where X is limited to −127 the
steps can give amax a code below 111; the steps are followed (DEDUCED, log 145). -/
def lg4Code (x : Int) (v : Val) : Nat :=
  let m := valMag (valScale (-x) v)
  -- code c covers values above the midpoint between its magnitude and the one below
  let above (c : Nat) : Bool :=
    let mid : Dy := if c = 1 then ⟨false, 1, -7⟩ else ⟨false, 3, (c : Int) - 9⟩
    dyLt mid m
  let c := (List.range 8).foldl (fun acc c => if c ≥ 1 && above c then c else acc) 0
  let neg := match v with | .fin d => d.neg | _ => false
  if c = 0 then 0 else c + (if neg then 8 else 0)

/-- Conversion of 32 values into an LG4 block (R50). An element that rounds to zero sets no UF (DESIGN CHOICE, log 143). -/
def toLg4 (vs : List Val) : Nat × List Nat × Flg :=
  if badBlock vs then (0xFF, vs.map (fun _ => 0), badBlockFlags vs)
  else
    let a := amax vs
    if a.mant = 0 then (0, vs.map (fun _ => 0), {})
    else
      let k := dyLead a
      let x0 := if dyLt ⟨false, 3, k - 1⟩ a then k + 1 else k
      let x := clampInt (-127) 127 x0
      ((x + 127).toNat, vs.map (lg4Code x), { ovf := decide (x0 > 127) })

/-- A block conversion by target format (R49, R50). -/
def toBlock (f : Nat) (rtz : Bool) (vs : List Val) : Nat × List Nat × Flg :=
  if f = 10 then toLg4 vs else toMx f rtz vs

end Sys2Proof.Machine
end

