-- ==== Sys2Proof/Machine/Loss.lean ====
section
/-! DEFINITION. Losing a context: abort waves, what they leave undefined in memory, stopped commands, and the alarms (R116, R242, R247, R318, R367–R370, R382). -/

namespace Sys2Proof.Machine

-- what an abort leaves undefined (R116, R247, R382)

/-- Source bytes of one rank of a collective (R111). -/
def srcBytes (co : Coll) (r : Nat) : Nat :=
  let b (k : Nat) : Nat := packedBytes (fmtBits co.src) k
  match co.op with
  | 0 => b co.count
  | 1 => b (co.n * co.count)
  | 2 => b co.count
  | 3 => if r = co.root then b co.count else 0
  | _ => ((co.sizes.drop (r * co.n)).take co.n).sum

/-- Destination bytes of one rank (R111). -/
def dstBytes (co : Coll) (r : Nat) : Nat :=
  let b (k : Nat) : Nat := packedBytes (fmtBits co.dst) k
  match co.op with
  | 0 => b co.count
  | 1 => b co.count
  | 2 => co.n * b co.count
  | 3 => b co.count
  | _ => ((List.range co.n).map (fun i => co.sizes.getD (i * co.n + r) 0)).sum

/-- A span left undefined, where it lies on this module: bytes that nothing constrains, under a fresh draw number (log 10). -/
def freeSpan (s : State) (n va len : Nat) : State :=
  let (d, s) := draw s
  (List.range ((va + len + 4095) / 4096 - va / 4096)).foldl (fun s i =>
    let a := if i = 0 then va else (va / 4096 + i) * 4096
    let k := Nat.min (4096 - a % 4096) (va + len - a)
    match translate s n a true with
    | .here pa => memWrite s n pa ((List.range k).map (fun j => Config.freeByte d (a - va + j))) false
    | _ => s) s

/-- Destinations of a running invocation that is stopped (R116). -/
def freeColl (n : Nat) (s : State) (co : Coll) : State :=
  if !co.running then s
  else ((List.range co.ranks.length).zip co.ranks).foldl (fun s x => freeSpan s n x.2.2 (dstBytes co x.1)) s

/-- Where the scale array of a block tensor of one row begins: the first 64-byte boundary at or after the end of its elements, the last block padded
(R41, R456). -/
def scaleArray (va f k : Nat) : Nat := (va + packedBytes (fmtBits f) ((k + 31) / 32 * 32) + 63) / 64 * 64

/-- Bytes of one segment (R248). -/
def segmentBytes : Nat := 0x100000

/-- Elements of a segment of a CONVERT: those of 1 MiB of its wider side, whole blocks (R248 names no side; DESIGN CHOICE, log 155). -/
def convertSegment (w : Nat → Nat) : Nat :=
  segmentBytes * 8 / Nat.max (fmtBits (bits (w 40) 3 0)) (fmtBits (bits (w 40) 7 4)) / 32 * 32

/-- Destination spans of the segment of a copy, fill or convert that begins `moved` bytes, or elements, into the work: elements or bytes, and scales. The
parameter words are given by packet byte. -/
def segmentSpans (opc : Nat) (w : Nat → Nat) (moved : Nat) : List (Nat × Nat) :=
  if opc = 0x42 then
    let k := bits (w 32) 31 0
    let f := bits (w 40) 7 4
    let blocks := bitOf (w 40) 10 && f ≠ 0
    let len := Nat.min (convertSegment w) (k - moved)
    (w 24 + packedBytes (fmtBits f) moved, packedBytes (fmtBits f) (if blocks then (len + 31) / 32 * 32 else len)) ::
      (if blocks then [(scaleArray (w 24) f k + moved / 32, (len + 31) / 32)] else [])
  else [((if opc = 0x41 then w 16 else w 24) + moved, Nat.min segmentBytes (bits (w 32) 39 0 - moved))]

/-- The part of a span that is written when an engine stops outside an abort wave: up to a boundary of 4 KiB of the destination (R247), which one it
reaches first being open. -/
def stoppedPart (d : Nat) (x : Nat × Nat) : Nat × Nat :=
  (x.1, Nat.min x.2 (4096 - x.1 % 4096 + 4096 * ((Config.freeWord d).toNat % 257)))

/-- The segment of a copy engine's work in flight when it is stopped: its destination is partly written (R247, R248), under an abort wave by whichever
beats had passed (R382). -/
def freeSegment (wave : Bool) (n : Nat) (s : State) (opc : Nat) (w : Nat → Nat) (moved : Nat) : State :=
  if !(opc == 0x40 || opc == 0x41 || opc == 0x42) then s
  else
    let (d, s) := if wave then (0, s) else draw s
    (segmentSpans opc w moved).foldl (fun s x => let y := if wave then x else stoppedPart d x; freeSpan s n y.1 y.2) s

/-- A stored node's parameter word, by the packet byte it stands for (R243). -/
def paramWord (params : List Byte) (off : Nat) : Nat := bytesNat ((params.drop (off - 16)).take 8)

/-- The version of a graph by number. -/
def gversionOf (p : Part) (h v : Nat) : Option GVersion := (tabGet {} p.graphs h).versions.find? (fun x => x.ver == v)

/-- The copy nodes of a run that are stopped. -/
def freeNodes (wave : Bool) (n h ver : Nat) (running : List (Nat × Nat)) (s : State) : State :=
  match gversionOf (partOf s n) h ver with
  | none => s
  | some v => running.foldl (fun s x => freeSegment wave n s (v.opcs.getD x.1 0) (paramWord (v.params.getD x.1 [])) x.2) s

/-- A command of a copy engine, or a run with copy nodes, that is stopped. -/
def freeCopy (wave : Bool) (n : Nat) (s : State) (c : Cmd) : State :=
  if c.phase ≠ .started then s
  else if c.opc = 0x31 then freeNodes wave n (cmdWord c 16 % 2 ^ 16) c.gver c.running s
  else freeSegment wave n s c.opc (cmdWord c) c.moved

/-- The beats of a PUT in flight that landed before an abort: which did is open (R382; log 9). -/
def landBeats (s : State) (n : Nat) (x : Xfer) : State :=
  let (d, s) := draw s
  (List.range (x.len / 64)).foldl (fun s i =>
    if Config.raceOld d i then s
    else match translate s n (x.va + 64 * i) true with
      | .here pa => memWrite s n pa ((x.data.drop (64 * i)).take 64) false
      | _ => s) s

/-- PUTs of a partition's tasks that are in flight. -/
def putsInFlight (s : State) (n : Nat) : List Xfer :=
  ((s.cores.filter (fun k => k.2.mode != .idle && k.2.part == n)).flatMap (fun k => k.2.xfers) ++
   (partOf s n).saves.flatMap (fun r => r.core.xfers)).filter (fun x => x.write && !x.performed && !x.sent && x.answer.isNone &&
    (writeRefused s (.core x.origin) n x.va x.len).isNone && !taskShut (partOf s n) x.graph x.va x.len true)

/-- Everything of a partition that an abort wave leaves undefined. -/
def freeInFlight (s : State) (n : Nat) : State :=
  let xs := putsInFlight s n
  let cs := (partOf s n).colls
  let qs := (queueOf s n 2).cmds ++ (queueOf s n 3).cmds
  let steps := (partOf s n).str.steps
  let s := cs.foldl (fun s x => freeColl n s x.2) (xs.foldl (fun s x => landBeats s n x) s)
  steps.foldl (fun s x => freeNodes true n x.2.graph x.2.ver x.2.running s) (qs.foldl (freeCopy true n) s)

-- abort waves and lost contexts (R242, R318, R382)

/-- ABORT packets to every other module of the virtual device, under a fresh serial (R318, R382). -/
def abortWave (s : State) (n cause status : Nat) : State :=
  let vd := (partOf s n).vd
  let cnt := s.fab.abortCount + 1
  let me := s.glb.moduleId
  let payload := natBytes 8 (vd.vdid + cause * 2 ^ 24 + status * 2 ^ 32) ++ natBytes 8 (cnt + me * 2 ^ 32)
  let pk := (vd.members.filter (fun m => m.modId != me)).map
    (fun m => mkPacket s 0x0A m.modId 0 0 0 0 true 0 payload)
  { s with fab := { s.fab with abortCount := cnt, serials := s.fab.serials ++ [(me, cnt)], out := s.fab.out ++ pk } }

/-- Requests whose acceptance entry is mirrored when a part's fault strikes: they are accepted (R283). -/
def accepted (part : Bool) (p : Part) : List Pending :=
  if part then p.journal.waiting.filter (fun y => y.mirrored && (y.item.typ == 1 || y.item.typ == 2)) else []

/-- The message spill area of a launch in 4 KiB pages (R234). -/
def spillPages (l : Launch) : Nat := (l.spillKib + 3) / 4
/-- Pages of the spill areas of some launches (R234). -/
def spillSum (ls : Tab Launch) : Nat := (ls.map (fun x => spillPages x.2)).sum

/-- The COLL_INVOKE of an invocation that runs (R112). -/
def invokes (p : Part) (seq : Nat) : Bool := p.colls.any (fun x => x.2.running && x.2.cmd == some (seq, none))

/-- Blocks of primary pools given back to their allocators: each by its pool's BASE and its address (R176). -/
def freeBlocks (p : Part) (l : List (Nat × Nat)) : Tab Pool := l.foldl (fun t x => tabMod {} t x.1 (fun y => { y with blocks := tabSet 0 y.blocks x.2 0 })) p.pools

/-- Blocks that hold the working areas of steps (R205; log 49). -/
def stepBlocks (p : Part) : List (Nat × Nat) :=
  p.str.steps.flatMap (fun x => match (gversionOf p x.2.graph x.2.ver).bind (·.gen) with
    | some g => if g.domains = [] && !x.2.applied then [(g.pools.headD 0, x.2.descriptor)] else []
    | none => [])

/-- Blocks of a partition's streams and graphs: page lists, KV pages, page numbers in reserve (R200, R201). -/
def kvBlocks (p : Part) : List (Nat × Nat) :=
  let at_ (g : GenBlock) (k : Nat) : Nat × Nat := (g.pools.headD 0, g.pools.headD 0 * 4096 + k * 2 ^ g.pageOrder)
  (p.str.streams.filter (fun x => x.2.state != .free)).flatMap (fun x => match (gversionOf p x.2.graph x.2.gver).bind (·.gen) with
    | some g => (g.pools.headD 0, x.2.kvList) :: x.2.pages.map (at_ g)
    | none => []) ++
  p.str.freePages.flatMap (fun x => match (tabGet {} p.graphs x.1).versions.getLast?.bind (·.gen) with
    | some g => x.2.map (at_ g)
    | none => [])

/-- The effect of an abort on one partition's units (R382): unfinished commands complete, streams that exist become FAULTED, steps and
kernels are abandoned and their spill areas returned, collective invocations stop, one that a COLL_INVOKE runs with S_ABORTED (R116; DESIGN CHOICE, log
154). `culprit` is the queue and SEQ whose command keeps `status`. -/
def abortPart (part : Bool) (culprit : Option (Nat × Nat)) (status detail : Nat) (p : Part) : Part :=
  { p with
    queues := tabMapV (fun q x => { x with cmds := x.cmds.map (fun c =>
      if c.phase = .done then c
      else if q = 1 && (accepted part p).any (fun y => y.cmdSeq == c.seq) then
        { c with phase := .done, status := sAccepted, result := ((accepted part p).find? (fun y => y.cmdSeq == c.seq)).elim 0 (·.item.reqTag.toNat) }
      else if culprit = some (q, c.seq) then { c with phase := .done, status := status, result := 0, detail := detail }
      else { c with phase := .done, status := if q = 4 && invokes p c.seq then sAborted else sContextLost, result := 0 }) }) p.queues
    launches := []
    saves := []
    rangeOp := none
    dying := []
    pools := freeBlocks p (stepBlocks p)
    carve := { p.carve with extra := p.carve.extra - spillSum p.launches }
    colls := tabOf {} (tabMapV (fun _ x => if x.asking = [] then { x with running := false, triggered := [], early := [], arrived := [], cmd := none } else {}) p.colls)
    journal := { p.journal with waiting := [], home := p.journal.home ++ (accepted part p).map (·.item) }
    str := { p.str with
      steps := []
      replays := []
      replayOn := false
      streams := tabMapV (fun _ x => if x.state = .free then x else { x with state := .faulted, pausing := false, cancelling := false }) p.str.streams
      rings := tabMapV (fun _ x => { x with reserved := 0, quota := 0, asking := false, asks := [], waiting := [] }) p.str.rings } }

/-- Commands of the PF's queues that work for a context stop with it (R242). -/
def abortPf (tag : Nat) (p : Part) : Part :=
  { p with queues := tabMapV (fun _ x => { x with cmds := x.cmds.map (fun c =>
      if c.phase ≠ .done && c.ctx = tag && tag ≠ 0 then { c with phase := .done, status := sContextLost, result := 0 } else c) }) p.queues }

/-- A context that can be lost: ACTIVE or RECOVERING (R241). -/
def losable (s : State) (n : Nat) : Bool := (partOf s n).ctx.state == .active || (partOf s n).ctx.state == .recovering

/-- Loss of a partition's context on this module (R241, R242, R382). A loss by the fault of a part enters RECOVERING, and starts its recovery
again (R286); any other loss during a recovery is LOST (DEDUCED, log 46). -/
def loseHere (s : State) (n status : Nat) (culprit : Option (Nat × Nat)) (fault : Nat) (part : Bool) : State :=
  if !losable s n then s
  else
    let s := freeInFlight s n
    let s := modPart s n (fun p => abortPart part culprit status fault { p with
      ctx := { p.ctx with
        state := if part then .recovering else .lost
        cause := status
        lostFault := fault
        lostValid := culprit.isSome
        lostQueue := (culprit.getD (0, 0)).1
        lostSeq := (culprit.getD (0, 0)).2
        replaying := part } })
    let s := modPart s 64 (abortPf (partOf s n).ctx.tag)
    let s := stopCores s n
    { s with cq := { s.cq with event := s.cq.event ||| 1, lostMask := s.cq.lostMask ||| 2 ^ n } }

/-- Loss of a partition's context with the abort wave that tells the other modules, under the given CAUSE of R382. -/
def loseCtx (s : State) (n status : Nat) (culprit : Option (Nat × Nat)) (fault wave : Nat) (part : Bool) : State :=
  if losable s n then abortWave (loseHere s n status culprit fault part) n wave status else s

/-- Loss of the contexts of several partitions by the fault of a part (R383). -/
def loseByPart (s : State) (ns : List Nat) (wave : Nat) : State :=
  ns.foldl (fun s n => loseCtx s n sContextLost none 0 wave true) s

/-- The front partition, or a standby for it, is on another module that is there (R264, R285). -/
def frontHolds (s : State) (n : Nat) : Bool :=
  let vd := (partOf s n).vd
  vd.members.any (fun m => m.present && m.rank != vd.rank && (m.rank == vd.frontRank || some m.rank == vd.standbyRank))

/-- Loss of contexts by the failure of this module (R242, R383, R388): a context whose front goes with it is LOST. -/
def loseByModule (s : State) (ns : List Nat) : State :=
  ns.foldl (fun s n => loseCtx s n sContextLost none 0 3 (frontHolds s n)) s

-- alarms (R367–R370)

/-- The level of an alarm code (R368). -/
def alarmLevel (code : Nat) : Nat :=
  if code ≤ 6 then 1 else if code ≤ 8 then 2 else if code ≤ 10 then 3 else 4

/-- A1: record, SEC_ALARM, events (R367). -/
def alarmA1 (s : State) (code level : Nat) : State :=
  let s := { s with sec := { s.sec with
    lastSource := code, lastLevel := level,
    a1 := if level = 1 then satAdd 0xFFFFFFFF s.sec.a1 1 else s.sec.a1,
    a2 := if level = 2 then satAdd 0xFF s.sec.a2 1 else s.sec.a2 } }
  event s 8 (if level = 1 then 1 else 3) code 0 9 5 none none [BitVec.ofNat 64 level]

/-- A2: quarantine (R367, R369): every TDI in CONFIG_LOCKED or RUN goes to ERROR and its context is lost; ALARM_N is low. -/
def alarmA2 (s : State) : State :=
  let s := { s with sec := { s.sec with quarantine := true, debug := [], alarmN := true } }
  let ns := tabKeys (fun n p => decide (n < 64) && p.vd.used && (p.vf.tdi == .locked || p.vf.tdi == .run)) s.parts
  ns.foldl (fun s n => loseCtx (modVf s n (fun v => { v with tdi := .error })) n sContextLost none 0 5 false) s

/-- A3: volatile keys zeroised, links refused with reason 10, the module a failed part (R306, R367, R369). -/
def alarmA3 (s : State) : State :=
  let s := { s with
    sec := { s.sec with zeroised := true, sessions := [], aliasHeld := false, deviceId := false, partnerKeys := [], linksPermitted := false }
    nv := { s.nv with a3Count := satAdd 15 s.nv.a3Count 1 }
    parts := tabMapV (fun _ p => { p with keys := {} }) s.parts
    fab := { s.fab with event := s.fab.event ||| 1 }
    ports := tabMapV (fun _ p => { p with ideLink := false }) s.ports
    err := { s.err with failing := some 3 } }
  let s := (List.range 24).foldl (fun s k => modLink s k (fun l => { l with state := 4, reason := 10, keyed := false, oldKey := false })) s
  loseByModule (event s 10 5 1 sContextLost 10 0 none none [BitVec.ofNat 64 s.pwr.meridian, 0, 0]) (livePartsOf s)

/-- A4: the kill fuse (R352, R367). -/
def alarmA4 (s : State) : State := { s with nv := { s.nv with lifecycle := 3 } }

/-- An alarm with the actions of its level and of every level below it (R367); an A3 that brings the fused count to 4 is an A4 (R368
code 0x0C). -/
def raiseAlarm (s : State) (code : Nat) : State :=
  let level := alarmLevel code
  let s := alarmA1 s code level
  if level = 1 then s
  else
    let s := alarmA2 s
    if level = 2 then s
    else
      let s := alarmA3 s
      if level = 4 || s.nv.a3Count ≥ 4 then
        let s := if level = 3 then alarmA1 s 0x0C 4 else s
        alarmA4 s
      else s

/-- The status of an engine's command that a read or write stops (R109). -/
def readStatus : ReadRes → Nat
  | .poison => sPoisoned
  | _ => sFaultXlate

/-- An engine's command meets an address without translation or right, or poison: the record of R374, and the loss of the context with
S_FAULT_XLATE or S_POISONED (R109, R242). `unit` is the engine's number of R373. -/
def engineFails (s : State) (n : Nat) (cmd : Option (Nat × Nat)) (unit va : Nat) (r : ReadRes) : State :=
  let rec_ (s : State) : State := event s 2 4 3 sFaultXlate 8 unit (some n) cmd [BitVec.ofNat 64 va, 0, 0]
  match r with
  | .fault => loseCtx (rec_ s) n sFaultXlate cmd 0 1 false
  | .alarm code => loseCtx (raiseAlarm (rec_ s) code) n sFaultXlate cmd 0 1 false
  | .poison => loseCtx s n sPoisoned cmd 0 1 false
  | _ => s

end Sys2Proof.Machine
end

