-- ==== Sys2Proof/Machine/Operands.lean ====
section
/-! DEFINITION. Operand forms of the core: register files, instruction words, lanes, predicates, effective addresses, local memory with its poison bits (R62–R66, R69, R126). -/

namespace Sys2Proof.Machine

-- registers

/-- Scalar register `r`; s0 reads zero (R62). -/
def sRead (k : Core) (r : Nat) : W64 := if r = 0 then 0 else tabGet 0 k.sreg r
/-- Write of scalar register `r`; writes to s0 are discarded (R62). -/
def sWrite (k : Core) (r : Nat) (v : W64) : Core := if r = 0 then k else { k with sreg := tabSet 0 k.sreg r v }
/-- Vector register `r`. -/
def vRead (k : Core) (r : Nat) : VReg := tabGet 0 k.vreg r
def vWrite (k : Core) (r : Nat) (v : VReg) : Core := { k with vreg := tabSet 0 k.vreg r v }
/-- Predicate register `r`; p0 reads all ones (R62). -/
def pRead (k : Core) (r : Nat) : W64 := if r = 0 then BitVec.allOnes 64 else tabGet 0 k.preg r
/-- Write of predicate register `r`; writes to p0 are discarded (R62). -/
def pWrite (k : Core) (r : Nat) (v : W64) : Core := if r = 0 then k else { k with preg := tabSet 0 k.preg r v }

/-- The core past its instruction. -/
def nextPc (k : Core) : Core := { k with pc := k.pc + 1 }

-- lanes and element types (R63, R70)

/-- Format code of a vector element type; `none` for the codes that name no type (R70). -/
def laneFmt (ty : Nat) : Option Nat :=
  match ty with
  | 0 => some fFP32 | 1 => some fBF16 | 2 => some fFP16 | 3 => some fINT32 | 4 => some fINT16 | _ => none

/-- Lanes of a vector register of `w`-bit elements (R62). -/
def laneCount (w : Nat) : Nat := 1024 / w
/-- Lane `i` of `w` bits (R63). -/
def lane (v : VReg) (w i : Nat) : Nat := (v.toNat / 2 ^ (w * i)) % 2 ^ w
/-- All lanes, lane 0 first. -/
def lanes (v : VReg) (w : Nat) : List Nat := (List.range (laneCount w)).map (lane v w)
/-- A vector register from its lanes. -/
def ofLanes (w : Nat) (xs : List Nat) : VReg := BitVec.ofNat 1024 (xs.foldr (fun x a => x % 2 ^ w + 2 ^ w * a) 0)
/-- Whether lane `i` is active under predicate `p` (R63). -/
def active (p : W64) (i : Nat) : Bool := p.getLsbD i
/-- Inactive lanes kept from the old register (R63). -/
def mergeLanes (p : W64) (old new : List Nat) : List Nat :=
  ((List.range old.length).zip (old.zip new)).map (fun x => if active p x.1 then x.2.2 else x.2.1)

-- local memory (R65, R76, R126)

/-- Effective address of format M: base register plus the offset scaled by the access size, in 64 bits (R65, R69). -/
def effAddr (k : Core) (base : Nat) (off : BitVec 13) (size : Nat) : Int :=
  (sRead k base + (off.signExtend 64) * BitVec.ofNat 64 size).toInt

/-- The fault of an access of `size` bytes at `a`, aligned to its size: range first, then alignment (R65 gives no order; DESIGN CHOICE, log 146). -/
def localFault (a : Int) (size : Nat) : Option Nat :=
  if a < 0 || a + size > Config.localBytes then some 3
  else if a % size ≠ 0 then some 4
  else none

/-- Some 64-byte word of the span is poisoned (R126). -/
def localPoisoned (k : Core) (a n : Nat) : Bool :=
  (List.range ((a + n + 63) / 64 - a / 64)).any (fun i => tabGet false k.lpoison (a / 64 + i))

/-- The span meets an open node stack (R76): d × 8 KiB from its base, d = ceil(log2 m). -/
def stackDepth (m : Nat) : Nat := if m ≤ 1 then 0 else Nat.log2 (m - 1) + 1
def nodeSpan (d : TileDesc) (a n : Nat) : Bool :=
  d.opn && decide (a < d.base + stackDepth d.m * 8192) && decide (d.base < a + n) && decide (stackDepth d.m > 0)

/-- The reduction that an opening MMAC starts, from sa (R55, R75): the descriptor or a fault code with its address. -/
def openDesc (v cov : Nat) (t : Option W32) : Except (Nat × Option Int) TileDesc :=
  let s := bits v 14 0
  let m := bits v 31 16
  let base := bits v 49 32
  let d := stackDepth m
  if bitOf v 15 || bits v 63 50 ≠ 0 then .error (5, none)
  else if m = 0 || m > 32768 then .error (5, none)
  else if s % 2 ^ d ≠ 0 || s + m > 32768 then .error (5, none)
  else if base % 4096 ≠ 0 then .error (4, some (base : Int))
  else if base + d * 8192 > Config.localBytes then .error (3, some (base : Int))
  else .ok { opn := true, cov, s, m, base, t }

/-- A span meets the node stack of an open reduction, or of the one that the MMAC now running opens (R76; the oldest instruction runs, R79). -/
def nodeProtected (k : Core) (a n : Nat) : Bool :=
  k.descs.any (fun x => nodeSpan x.2 a n) ||
  (match k.queue.head? with
   | some (.mac o) => o.opens && (match openDesc o.operand.toNat 0 none with | .ok d => nodeSpan d a n | .error _ => false)
   | _ => false)

/-- What queued MLOADs remember of beats about to be overwritten (R68). -/
def rememberBeats (k : Core) (a n : Nat) : List MatOp :=
  k.queue.map (fun o => match o with
    | .load l => .load { l with olds := (List.range ((a + n + 63) / 64 - a / 64)).foldl (fun t i =>
        let b := a / 64 + i
        if tabGet [] t b = [] then tabSet [] t b (tabBytes k.lmem (64 * b) 64) else t) l.olds }
    | x => x)

/-- Poison bits after a write of `n` bytes at `a` (R126): words written whole take the data's poison; a word written in part
keeps a poison it has (DEDUCED, log 15). -/
def poisonAfter (t : Tab Bool) (a n : Nat) (bad : Bool) : Tab Bool :=
  (List.range ((a + n + 63) / 64 - a / 64)).foldl (fun t i =>
    let w := a / 64 + i
    let whole := decide (a ≤ 64 * w) && decide (64 * w + 64 ≤ a + n)
    tabSet false t w (if whole then bad else bad || tabGet false t w)) t

/-- A write into local memory by the core's pipeline or message unit. -/
def localWrite (k : Core) (a : Nat) (bs : List Byte) : Core :=
  { k with queue := rememberBeats k a bs.length, lmem := tabPut k.lmem a bs, lpoison := poisonAfter k.lpoison a bs.length false }

/-- A write into local memory by the matrix engine. -/
def engineWrite (k : Core) (a : Nat) (bs : List Byte) : Core :=
  { k with lmem := tabPut k.lmem a bs, lpoison := poisonAfter k.lpoison a bs.length false }

-- what one instruction of a core can come to

/-- The result of one instruction on its core. -/
inductive CoreRes where
  /-- completed -/
  | ok (k : Core)
  /-- a fault of R88, with the local address where one is at fault -/
  | fault (code : Nat) (addr : Option Int)
  /-- an uncorrectable local memory word was read (R126) -/
  | poisoned (addr : Nat)
  deriving DecidableEq, Repr

/-- The core can issue its next instruction: a task runs, and nothing blocks it (R61) (DEDUCED, log 86). -/
def coreReady (k : Core) : Bool := k.mode == .running && k.blocked == .none

/-- The queue and SEQ of the command whose kernel the core runs. -/
def coreCmd (s : State) (k : Core) : Option (Nat × Nat) := match (launchOf s k.part k.launch).seq with
  | some q => if q < 2 ^ 32 then some (2, q) else none
  | none => none

/-- A core fault (R88, R373, R374): the task stops, its matrix queue is discarded, a record is written and the context is lost.
`word` is the instruction word; a fault of the matrix engine gives its own instruction's PC. -/
def coreFaultAt (s : State) (c code : Nat) (word : W32) (pc : Int) (addr : Option Int) (status : Nat) : State :=
  let k := coreOf s c
  let cmd := coreCmd s k
  let w0 := k.task + (pc % 65536).toNat * 2 ^ 32
  let w1 := word.toNat + (match addr with | none => 0 | some a => (2 ^ 31 + (a % 2 ^ 18).toNat) * 2 ^ 32)
  let s := event s 0 4 code status 1 c (some k.part) cmd [BitVec.ofNat 64 w0, BitVec.ofNat 64 w1, 0]
  let s := modCore s c freeCore
  loseCtx s k.part status cmd code 1 false

def coreFault (s : State) (c code : Nat) (word : W32) (addr : Option Int) : State :=
  coreFaultAt s c code word (coreOf s c).pc addr sContextLost

/-- The task stops on an uncorrectable error of local memory, or of instruction memory that could not be reloaded (R126, R374):
the record is of class MEMORY and the status S_POISONED. Memory kind 0 is local memory, 1 instruction memory. -/
def coreMemFault (s : State) (c kind addr : Nat) : State :=
  let k := coreOf s c
  let cmd := coreCmd s k
  let s := event s 1 4 2 sPoisoned 1 c (some k.part) cmd [BitVec.ofNat 64 addr, BitVec.ofNat 64 (kind * 2 ^ 16), 0]
  let s := modCore s c freeCore
  loseCtx s k.part sPoisoned cmd 0 1 false

/-- The word at the core's PC (R67). -/
def fetched (k : Core) : W32 := k.image.getD k.pc.toNat 0

/-- One instruction issued on core `c`: nothing happens unless the core is ready; a fetch outside the image faults, with no word to report
(R67); a word that is no instruction faults (R70), and where the word is another instruction than the one given, nothing happens (log 2); an illegal
form faults (R70); else the body runs, and a completed instruction is counted (R416, INSTR) (DEDUCED, log 13). -/
def issue (s : State) (c : Nat) (word : W32) (legal : Bool) (body : Core → CoreRes) : State :=
  let k := coreOf s c
  if !coreReady k then s
  else if k.pc < 0 || k.pc ≥ k.image.length then coreFault s c 2 0 none
  else if fetched k ≠ word then (if (decodeCore c (fetched k)).isSome then s else coreFault s c 1 (fetched k) none)
  else if !legal then coreFault s c 1 word none
  else match body k with
    | .ok k' => countBoth (modCore s c (fun _ => k')) c k.part 1 1 1
    | .fault code addr => coreFault s c code word addr
    | .poisoned addr => coreMemFault s c 0 addr

end Sys2Proof.Machine
end

