-- ==== Sys2Proof/Machine/Flags.lean ====
section
/-! DEFINITION. Sticky flags and special registers of the core: CFLAGS, CTASK, CLIVE (R48, R64). -/

namespace Sys2Proof.Machine

/-- Flags raised by an operation, sticky in CFLAGS (R48). -/
def raiseFlags (k : Core) (g : Flg) : Core := { k with nv := k.nv || g.nv, ovf := k.ovf || g.ovf, unf := k.unf || g.unf }

/-- CFLAGS as it reads (R64). -/
def cflags (k : Core) : Nat := b2n k.nv + 2 * b2n k.ovf + 4 * b2n k.unf

/-- CLIVE.EXTENT for a written value: rounded up to 4 KiB and limited to 0x4_0000 (R64). -/
def cliveOf (v : Nat) : Nat := Nat.min ((v % 2 ^ 19 + 4095) / 4096 * 4096) Config.localBytes

/-- A special register's value by number; `none` for a number that is not assigned (R64). -/
def specialRead (k : Core) (n : Nat) : Option Nat :=
  match n with
  | 0 => some (cflags k)
  | 1 => some (k.task % 2 ^ 32)
  | 2 => some k.clive
  | _ => none

/-- A write of a special register; a write to CTASK, which is RO, is ignored (R64, R7). -/
def specialWrite (k : Core) (n v : Nat) : Option Core :=
  match n with
  | 0 => some { k with nv := bitOf v 0, ovf := bitOf v 1, unf := bitOf v 2 }
  | 1 => some k
  | 2 => some { k with clive := cliveOf v }
  | _ => none

/-- All flags of a list of lane results. -/
def flagsOf (l : List (Nat × Flg)) : Flg := l.foldl (fun g x => flgOr g x.2) {}

end Sys2Proof.Machine
end

