-- ==== Sys2Proof/Machine/TaskOps.lean ====
section
/-! DEFINITION. Tasks, launches and graph runs: completing nodes and launches, ending tasks, accepting and delivering messages, barriers, resuming blocked cores (R83, R89–R107, R243). -/

namespace Sys2Proof.Machine

-- graph runs (R243)

/-- Statuses that count as done well (R232). -/
def goodStatus (st : Nat) : Bool := st = sOk || st = sAccepted

/-- The status of a complete run: S_OK, or the first failure in node order (R243). -/
def runStatus (count : Nat) (nodes : List (Nat × Nat)) : Nat :=
  ((List.range count).findSome? (fun i => (nodes.find? (fun d => d.1 == i && !goodStatus d.2)).map (·.2))).getD sOk

/-- What is known of a run: its graph version and its nodes. A run is a GRAPH_LAUNCH of Q2, or a step at 2^32 plus its number. -/
def runOf (s : State) (f seq : Nat) : Option (GVersion × List (Nat × Nat) × List (Nat × Nat)) :=
  if seq < 2 ^ 32 then
    match startedCmd s f 2 seq 0x31 with
    | some c => if c.moved = 0 then none else (gversionOf (partOf s f) (cmdWord c 16 % 2 ^ 16) c.gver).map (fun v => (v, c.nodes, c.running))
    | none => none
  else if frozen s f then none
  else
    match (partOf s f).str.steps.find? (fun x => x.1 == seq - 2 ^ 32) with
    | some x => (gversionOf (partOf s f) x.2.graph x.2.ver).map (fun v => (v, x.2.nodes, x.2.running))
    | none => none

/-- A run's nodes changed. -/
def setRun (s : State) (f seq : Nat) (nodes running : List (Nat × Nat)) : State :=
  if seq < 2 ^ 32 then modCmd s f 2 seq (fun c => { c with nodes, running })
  else modStr s f (fun t => { t with steps := tabMapV (fun k x => if k = seq - 2 ^ 32 then { x with nodes, running } else x) t.steps })

/-- Some launch of a graph runs: a GRAPH_LAUNCH that has begun, or a step (R245). -/
def runsVersion (p : Part) (h : Nat) (v : Nat → Bool) : Bool :=
  (tabGet {} p.queues 2).cmds.any (fun c => c.phase == .started && c.opc == 0x31 && c.moved == 1 && cmdWord c 16 % 2 ^ 16 == h && v c.gver) ||
  p.str.steps.any (fun x => x.2.graph == h && v x.2.ver)
def graphRuns (p : Part) (h : Nat) : Bool := runsVersion p h (fun _ => true)

/-- A version is pinned by a launch that runs it or a stream that opened under it (R194, R245). -/
def pinned (p : Part) (h v : Nat) : Bool :=
  runsVersion p h (· == v) || p.str.streams.any (fun x => x.2.state != .free && x.2.graph == h && x.2.gver == v)

/-- Versions that are neither newest nor pinned are freed (R245). -/
def pruneGraph (s : State) (n h : Nat) : State :=
  modPart s n (fun p =>
    let vs := (tabGet {} p.graphs h).versions
    { p with graphs := tabSet {} p.graphs h { versions := vs.filter (fun v => some v.ver == vs.getLast?.map (·.ver) || pinned p h v.ver) } })

/-- A node of a run complete, with whatever status; a GRAPH_LAUNCH whose nodes are all done completes (R243) (DEDUCED, log 32). The
steps of the stream sequencer end by STEP_TASKS_ENDED. -/
def nodeDone (s : State) (f seq node status : Nat) : State :=
  match runOf s f seq with
  | none => s
  | some (v, nodes, running) =>
    let nodes := nodes ++ [(node, status)]
    let s := setRun s f seq nodes (running.filter (·.1 != node))
    if seq < 2 ^ 32 && nodes.length ≥ v.opcs.length then
      let h := ((findCmd s f 2 seq).map (fun c => cmdWord c 16 % 2 ^ 16)).getD 0
      pruneGraph (finish s f 2 seq (runStatus v.opcs.length nodes) v.ver) f h
    else s

/-- The activity of a command, or of a node of a run, complete. -/
def workDone (s : State) (f q seq : Nat) (node : Option Nat) (status result : Nat) : State :=
  match node with
  | none => finish s f q seq status result
  | some k => nodeDone s f seq k status

-- launches

/-- This module's share of a launch has ended: every task homed here is DONE. -/
def shareDone (l : Launch) : Bool :=
  l.live && !l.ended && decide (l.next ≥ l.hi) && (List.range (l.hi - l.lo)).all (fun i => (tabGet {} l.tasks (l.lo + i)).state == .done)

/-- A CONTROL packet to a member module (R308). -/
def sendControl (s : State) (n mid dtask code arg : Nat) (payload : List Byte) : State :=
  let vd := (partOf s n).vd
  sendPacket s (mkPacket s 0x08 mid vd.vdid vd.edition dtask 0 false (ctlOperand code arg) payload)

/-- Every other present member module of a partition's virtual device. -/
def otherMembers (s : State) (n : Nat) : List Nat :=
  ((partOf s n).vd.members.filter (fun m => m.present && m.rank != (partOf s n).vd.rank)).map (·.modId)

/-- A kernel is over: the members forget their shares (log 33). -/
def shareOver (s : State) (n l : Nat) : State := (otherMembers s n).foldl (fun s m => sendControl s n m l ctlShareOver 0 []) s

/-- A launch whose share has ended completes what waits for it, or reports to the module that started it; its spill area returns to the
carve-out (R234). -/
def launchSettle (s : State) (n l : Nat) : State :=
  let x := launchOf s n l
  if !shareDone x || x.left ≠ [] then s
  else
    let s := modPart s n (fun p => { p with
      launches := tabSet {} p.launches l (if x.reportTo.isSome then { x with ended := true, spillKib := 0 } else {})
      carve := { p.carve with extra := p.carve.extra - spillPages x } })
    match x.reportTo, x.seq with
    | some (mid, id), _ => sendControl s n mid id ctlShareDone x.discarded []
    | none, some q => workDone (shareOver s n l) n 2 q x.node (x.failed.getD sOk) (x.discarded % 2 ^ 32)
    | none, none => shareOver s n l

/-- The task's place in its launch changed. -/
def modTask (s : State) (n l t : Nat) (g : Task → Task) : State :=
  modLaunch s n l (fun x => { x with tasks := tabMod {} x.tasks t g })

/-- The key of a task in the core map (R94). -/
def mapKey (l t : Nat) : Nat := l * 2 ^ 32 + t

/-- END takes effect (R83, R105, R415, R416): leftover inbox messages are discarded, counted and warned about, the core is free, the task
is DONE. -/
def endTask (s : State) (c : Nat) : State :=
  let k := coreOf s c
  let d := k.inbox.length + k.direct.length
  let s := if d = 0 then s else event s 11 1 1 0 1 c (some k.part) (coreCmd s k) [0, BitVec.ofNat 64 d, 0]
  let s := modLaunch s k.part k.launch (fun x => { x with discarded := x.discarded + d })
  let s := countPart (countBoth s c k.part 7 2 1) k.part 7 d
  let s := progress (modCore s c freeCore) k.part
  let s := modTask s k.part k.launch k.task (fun t => { t with state := .done })
  let own (i : Nat) : Bool := (sliceOf s i).owner == k.part
  let s := { s with clusters := tabMapV (fun i x => if own i then { x with coreMap := tabDel x.coreMap (mapKey k.launch k.task) } else x) s.clusters }
  launchSettle s k.part k.launch

/-- The classes of a FENCEOP have completed (R81, R104): stores complete in order. -/
def fenceDone (k : Core) (m g x : Bool) : Bool :=
  (!m || k.queue.isEmpty) && (!g || k.xfers.isEmpty) && (!x || k.sends.isEmpty)

/-- A core blocked in a FENCEOP or an END goes on once what it waits for is complete (R81, R83, R105). -/
def wake (s : State) (c : Nat) : State :=
  let k := coreOf s c
  if k.mode ≠ .running then s
  else match k.blocked with
    | .fence m _ g x => if fenceDone k m g x then modCore s c (fun k => { nextPc k with blocked := .none }) else s
    | .ending => if fenceDone k true true true then endTask s c else s
    | _ => s

/-- A fault that the message unit meets after its instruction has issued (R109, R116): the record gives the instruction at the PC. -/
def messageFault (s : State) (c status : Nat) : State :=
  let k := coreOf s c
  coreFaultAt s c 7 (k.image.getD k.pc.toNat 0) k.pc none status

-- inboxes (R97, R98)

/-- Bytes a message occupies: a 64-byte header and its payload rounded up to 64 bytes (R98). -/
def msgBytes (m : Msg) : Nat := 64 + (m.payload.length + 63) / 64 * 64
def msgSum (l : List Msg) : Nat := l.foldl (fun a m => a + msgBytes m) 0
def inboxBytes : Nat := 32768

/-- A message on the channel, from the source unless any source will do (R100). -/
def msgMatches (src chan : Nat) (any : Bool) (m : Msg) : Bool := m.chan == chan && (any || m.src == src)

/-- The list without its first element that satisfies `p`. -/
def dropFirst (p : Msg → Bool) : List Msg → List Msg
  | [] => []
  | m :: ms => if p m then ms else m :: dropFirst p ms

/-- The header RECV writes to rd (R100). -/
def recvHeader (m : Msg) : W64 := BitVec.ofNat 64 (m.src % 2 ^ 32 + m.chan % 16 * 2 ^ 32 + m.payload.length * 2 ^ 36)

/-- RECV with a matching message in the inbox (R100, R76): the oldest is taken; one longer than the capacity faults and stays. -/
def takeMessage (k : Core) (rd src chan : Nat) (any : Bool) (buf cap : Nat) : Option CoreRes :=
  match k.inbox.find? (msgMatches src chan any) with
  | none => none
  | some m =>
    if m.payload.length > cap then some (.fault 7 none)
    else if nodeProtected k buf m.payload.length then some (.fault 6 (some buf))
    else
      let k := { k with inbox := dropFirst (msgMatches src chan any) k.inbox, blocked := .none }
      some (.ok (nextPc (sWrite (localWrite k buf m.payload) rd (recvHeader m))))

/-- The channels of a mask that hold a message (R101). -/
def readyMask (k : Core) (mask : Nat) : Nat :=
  maskOf ((List.range 16).filter (fun ch => bitOf mask ch && k.inbox.any (fun m => m.chan == ch)))

/-- Space for a message at its task's place (R98): spill area, inbox, or the router's hold buffer, whose size is not given (DEDUCED,
log 35). -/
def spaceFor (s : State) (n l : Nat) (m : Msg) : Bool :=
  let x := launchOf s n l
  let t := tabGet {} x.tasks m.dst
  match t.state with
  | .pending =>
    let waiting := x.flight.filter (fun y => (tabGet {} x.tasks y.dst).state == .pending)
    decide (msgSum x.spill + msgSum waiting + msgBytes m ≤ x.spillKib * 1024)
  | .bound =>
    let k := coreOf s t.core
    decide (msgSum k.inbox + msgSum k.direct + msgSum t.held + msgSum (x.flight.filter (fun y => y.dst == m.dst)) + msgBytes m ≤ inboxBytes)
  | _ => true

/-- Messages held behind a move are forwarded to the new core's inbox, in order, while they fit (R96, R98), with fuel. -/
def forwardHeld (n l t c : Nat) : Nat → State → State
  | 0, s => s
  | fuel + 1, s =>
    match (tabGet {} (launchOf s n l).tasks t).held with
    | [] => s
    | m :: rest =>
      if msgSum (coreOf s c).inbox + msgSum (coreOf s c).direct + msgBytes m > inboxBytes then s
      else
        let s := modTask s n l t (fun x => { x with held := rest })
        forwardHeld n l t c fuel (modCore s c (fun k => { k with inbox := k.inbox ++ [m] }))

/-- Messages of a bound task that still lie in the spill area move to its inbox, in arrival order, while they fit (R95, R98), with fuel. -/
def drainSpill (n l t c : Nat) : Nat → State → State
  | 0, s => s
  | fuel + 1, s =>
    match (launchOf s n l).spill.find? (fun m => m.dst == t) with
    | none => s
    | some m =>
      let k := coreOf s c
      if msgSum k.inbox + msgSum k.direct + msgBytes m > inboxBytes then s
      else
        let s := modLaunch s n l (fun x => { x with spill := dropFirst (fun y => y.dst == t) x.spill })
        drainSpill n l t c fuel (modCore s c (fun k => { k with inbox := k.inbox ++ [m] }))

/-- What waits for the task of core `c` moves into its inbox: messages held behind a move, then those of the spill area. -/
def drainFor (s : State) (c : Nat) : State :=
  let k := coreOf s c
  if k.mode ≠ .running then s
  else if k.awaitFwd then forwardHeld k.part k.launch k.task c (tabGet {} (launchOf s k.part k.launch).tasks k.task).held.length s
  else drainSpill k.part k.launch k.task c (launchOf s k.part k.launch).spill.length s

/-- A core blocked in RECV or WAITMSG goes on when the inbox lets it (R100, R101). -/
def wakeInbox (s : State) (c : Nat) : State :=
  let k := coreOf s c
  match k.blocked with
  | .recv rd src chan any buf cap _ =>
    match takeMessage k rd src chan any buf cap with
    | some (.ok k') => drainFor (modCore s c (fun _ => k')) c
    | some (.fault code a) => coreFaultAt s c code (k.image.getD k.pc.toNat 0) k.pc a sContextLost
    | _ => s
  | .waitmsg rd mask _ _ =>
    if readyMask k mask = 0 then s
    else modCore s c (fun k => { nextPc (sWrite k rd (BitVec.ofNat 64 (readyMask k mask))) with blocked := .none })
  | _ => s

/-- A message placed by the state of its task (R95, R96): in the spill area, the inbox, behind a move, or refused. The last case is a
FAULT to the sender. -/
def placeMessage (s : State) (n l : Nat) (m : Msg) : State :=
  let t := tabGet {} (launchOf s n l).tasks m.dst
  match t.state with
  | .pending => modLaunch s n l (fun x => { x with spill := x.spill ++ [m] })
  | .moving => modTask s n l m.dst (fun t => { t with held := t.held ++ [m] })
  | .bound =>
    if (launchOf s n l).spill.any (fun y => y.dst == m.dst) then modLaunch s n l (fun x => { x with spill := x.spill ++ [m] })
    else if (coreOf s t.core).awaitFwd then modCore s t.core (fun k => { k with direct := k.direct ++ [m] })
    else wakeInbox (modCore s t.core (fun k => { k with inbox := k.inbox ++ [m] })) t.core
  | .done =>
    let u := tabGet {} (launchOf s n l).tasks m.src
    if u.state = .bound then messageFault s u.core sContextLost else s

-- barriers (R107)

/-- The cores blocked in barrier `b` of a launch released, and the phase ended; arrivals that came for the next phase are counted in it (R107). -/
def barRelease (s : State) (n l b : Nat) : State :=
  let bar := tabGet {} (launchOf s n l).bars b
  let waits (k : Core) : Bool := k.mode == .running && k.part == n && k.launch == l &&
    (match k.blocked with | .bar b' _ _ => b' == b | _ => false)
  let owed := bar.arrived.filter (fun t => !s.cores.any (fun x => waits x.2 && x.2.task == t))
  let home := owed.filter (fun t => decide ((launchOf s n l).lo ≤ t) && decide (t < (launchOf s n l).hi))
  let now := bar.ahead.filter (fun a => a.1 == bar.phase + 1)
  let s := modLaunch s n l (fun x => { x with bars := tabMod {} x.bars b (fun y => { y with
    count := (now.head?.map (·.2.2)).getD 0, arrived := now.map (·.2.1), phase := y.phase + 1, owed := y.owed ++ home
    ahead := y.ahead.filter (fun a => a.1 != bar.phase + 1) }) })
  { s with cores := tabMapV (fun _ k => if waits k then { nextPc k with blocked := .none } else k) s.cores }

/-- An arrival at a barrier point (R107): counted once by task index; the last one releases. `none` when its participant count differs
from the one already given in the phase. -/
def barArrive (s : State) (n l b count t : Nat) : Option State :=
  let bar := tabGet {} (launchOf s n l).bars b
  if bar.arrived.contains t then some s
  else if bar.arrived ≠ [] && bar.count ≠ count then none
  else
    let s := modLaunch s n l (fun x => { x with bars := tabMod {} x.bars b (fun y => { y with count, arrived := y.arrived ++ [t] }) })
    if bar.arrived.length + 1 ≥ count then some (barRelease s n l b) else some s

-- homes (R90)

/-- Clusters of the whole virtual device, and of the partitions of lower rank. -/
def totalClusters (vd : Vd) : Nat := vd.members.foldl (fun a m => a + m.compute) 0
def clustersBelow (vd : Vd) (r : Nat) : Nat := (vd.members.filter (fun m => decide (m.rank < r))).foldl (fun a m => a + m.compute) 0

/-- The member that is home to task `i` of `total` tasks (R90). -/
def homeMember (vd : Vd) (total i : Nat) : Option Member :=
  let q := i * totalClusters vd / total
  vd.members.find? (fun m => decide (clustersBelow vd m.rank ≤ q) && decide (q < clustersBelow vd m.rank + m.compute))

/-- The first task index at or after which floor(i × C / N) reaches `p`: the bounds of a partition's share (R90). -/
def firstTask (total clusters p : Nat) : Nat := if clusters = 0 then total else Nat.min total ((p * total + clusters - 1) / clusters)

end Sys2Proof.Machine
end

