-- ==== Sys2Proof/Machine/Matrix.lean ====
section
/-! DEFINITION. The matrix engine: issue, the checks it makes as it runs, and completion of loads, chunks, stores and scalings (R43–R45, R52–R55, R61, R68, R73–R79). -/

namespace Sys2Proof.Machine

-- formats and coverage

/-- Coverage class of a format alone: 0 sixteenth, 1 quarter, 2 full (R73). -/
def covOf (f : Nat) : Nat := if f = fFP32 then 0 else if f = fBF16 || f = fFP16 then 1 else 2
/-- Rows and columns of the tile area of one MMAC (R73). -/
def covRows (cov : Nat) : Nat := match cov with | 0 => 8 | 1 => 16 | _ => 32
def covCols (cov : Nat) : Nat := match cov with | 0 => 16 | 1 => 32 | _ => 64
/-- SUB values of a class (R73), and how many areas lie side by side. -/
def covSubs (cov : Nat) : Nat := match cov with | 0 => 16 | 1 => 4 | _ => 1
def covAcross (cov : Nat) : Nat := match cov with | 0 => 4 | 1 => 2 | _ => 1
/-- Runs of a part (R73): its own format decides them, since both formats of a pair lie in one class. -/
def partRuns (f part : Nat) : Nat := if part = 0 then covRows (covOf f) else covCols (covOf f)
/-- Bytes of one run of 512 elements. -/
def runBytes (f : Nat) : Nat := 64 * fmtBits f

def isFp8 (f : Nat) : Bool := f = fE4M3 || f = fE5M2
def isFp64 (f : Nat) : Bool := f = fE3M2 || f = fE2M3 || f = fE2M1

/-- The operand pairs of R44, in either order. INT8 pairs with INT8 only, and MXINT8 with MXINT8 (DEDUCED, log 28). -/
def pairOk (fa : Nat) (ma : Bool) (fb : Nat) (mb : Bool) : Bool :=
  if fa = fINT8 && fb = fINT8 then ma == mb
  else if isFp8 fa && isFp8 fb then true
  else if isFp64 fa && isFp64 fb then true
  else if fa = fLG4 && isFp8 fb then true
  else if fb = fLG4 && isFp8 fa then true
  else fa = fb && !ma && !mb && (fa = fFP32 || fa = fBF16 || fa = fFP16 || fa = fINT4)

/-- T of an LG4 part: finite and non-zero (R43). -/
def scaleOk (t : Nat) : Bool :=
  match decodeFloat fFP32 t with
  | .fin d => d.mant != 0
  | _ => false

/-- Range of `n` runs of `rb` bytes at a stride (R65). -/
def runsFit (base stride n rb : Nat) : Bool := decide (base + (n - 1) * stride + rb ≤ Config.localBytes)

-- issue: the instruction enters the queue with the register values it reads (R61); its operands are checked in the engine (R88)

/-- A matrix instruction issued: the core stalls while the queue is full (R61). -/
def issueMatrix (s : State) (c : Nat) (word : W32) (legal : Bool) (op : Core → MatOp) : State :=
  if (coreOf s c).queue.length ≥ Config.matrixQueue then s
  else issue s c word legal (fun k => .ok (nextPc { k with queue := k.queue ++ [op k] }))

/-- MLOAD (R74). -/
def execMload (c : Nat) (slot part : Bool) (fmt : BitVec 4) (mx : Bool) (sa sb : BitVec 5) (rsv : BitVec 9) (s : State) : Out :=
  let word := wordMload slot part fmt mx sa sb rsv
  .next (issueMatrix s c word (rsv == 0 && decide (fmt.toNat ≤ 10)) (fun k =>
    .load { slot := b2n slot, part := b2n part, fmt := fmt.toNat, mx, operand := sRead k sa.toNat
            t := (sRead k sb.toNat).setWidth 32, pc := k.pc, word }))

/-- MMAC (R75). -/
def execMmac (c : Nat) (tile : BitVec 3) (slot opn : Bool) (sa : BitVec 5) (sub : BitVec 4) (rsv : BitVec 12) (s : State) : Out :=
  let word := wordMmac tile slot opn sa sub rsv
  .next (issueMatrix s c word (rsv == 0) (fun k =>
    .mac { tile := tile.toNat, slot := b2n slot, opens := opn, operand := sRead k sa.toNat, sub := sub.toNat, pc := k.pc, word }))

/-- MSTORE (R78): FMT is 0x0 to 0x4. -/
def execMstore (c : Nat) (tile : BitVec 3) (fmt : BitVec 4) (rnd sat : Bool) (sa : BitVec 5) (rsv : BitVec 12) (s : State) : Out :=
  let word := wordMstore tile fmt rnd sat sa rsv
  .next (issueMatrix s c word (rsv == 0 && decide (fmt.toNat ≤ 4)) (fun k =>
    .store { tile := tile.toNat, fmt := fmt.toNat, rtz := rnd, sat, operand := sRead k sa.toNat, pc := k.pc, word }))

/-- MSCALE (R78). -/
def execMscale (c : Nat) (tile : BitVec 3) (sa : BitVec 5) (rsv : BitVec 18) (s : State) : Out :=
  let word := wordMscale tile sa rsv
  .next (issueMatrix s c word (rsv == 0) (fun k =>
    .scale { tile := tile.toNat, t := if sa = 0 then none else some ((sRead k sa.toNat).setWidth 32), pc := k.pc, word }))

-- checks in the engine (R43, R44, R55, R65, R73–R75, R78, R88): a fault code with its local address

/-- Element base, scale base and run stride of an MLOAD (R74). -/
def loadBase (o : LoadOp) : Nat := bits o.operand.toNat 17 0
def loadScales (o : LoadOp) : Nat := bits o.operand.toNat 35 18
def loadStride (o : LoadOp) : Nat := bits o.operand.toNat 53 36

/-- What is wrong with an MLOAD (R43, R65, R74). Bits of sa that must be zero raise a matrix operand fault when set (DEDUCED, log 30); the scale
base is checked where the scales are read (DESIGN CHOICE, log 147). A misaligned stride names no address. -/
def loadFault (o : LoadOp) : Option (Nat × Option Int) :=
  let n := partRuns o.fmt o.part
  if bits o.operand.toNat 63 54 ≠ 0 then some (5, none)
  else if loadBase o % 64 ≠ 0 then some (4, some (loadBase o))
  else if o.mx && loadScales o % 64 ≠ 0 then some (4, some (loadScales o))
  else if loadStride o % 64 ≠ 0 then some (4, none)
  else if o.fmt = fLG4 && (!o.mx || !scaleOk o.t.toNat) then some (5, none)
  else if !runsFit (loadBase o) (loadStride o) n (runBytes o.fmt) then some (3, some (loadBase o + (n - 1) * loadStride o : Nat))
  else if o.mx && !runsFit (loadScales o) 16 n 16 then some (3, some (loadScales o + 16 * (n - 1) : Nat))
  else none

/-- The T of a slot's LG4 part, if it has one. -/
def slotT (a b : MxPart) : Option W32 := if a.fmt = fLG4 then some a.t else if b.fmt = fLG4 then some b.t else none

/-- All SUB positions of a class hold m chunks (R75). -/
def closed (d : TileDesc) : Bool := (List.range (covSubs d.cov)).all (fun p => tabGet 0 d.count p = d.m)

/-- The reduction that an MMAC without OPEN goes on with (R75, R78). A SUB position that has m chunks already takes no more: a matrix operand fault
(DESIGN CHOICE, log 142). -/
def goOn (d : TileDesc) (cov sub : Nat) (t : Option W32) : Except (Nat × Option Int) TileDesc :=
  if !d.opn || d.cov ≠ cov || tabGet 0 d.count sub ≥ d.m then .error (5, none)
  else if t.isSome && d.t.isSome && t ≠ d.t then .error (5, none)
  else .ok { d with t := if d.t.isSome then d.t else t }

/-- The reduction that an MMAC works on, before its chunk, or its fault (R44, R55, R73, R75). A part that no MLOAD has filled forms no pair of R44: a
matrix operand fault (DESIGN CHOICE, log 141). -/
def macStart (k : Core) (o : MacOp) : Except (Nat × Option Int) TileDesc :=
  let a := tabGet {} k.parts (2 * o.slot)
  let b := tabGet {} k.parts (2 * o.slot + 1)
  let cov := covOf (if a.fmt = fLG4 then b.fmt else a.fmt)
  if !a.valid || !b.valid || !pairOk a.fmt a.mx b.fmt b.mx then .error (5, none)
  else if o.sub ≥ covSubs cov then .error (5, none)
  else if o.opens then openDesc o.operand.toNat cov (slotT a b)
  else goOn (tabGet {} k.descs o.tile) cov o.sub (slotT a b)

/-- Base and row stride of an MSTORE (R78). -/
def storeBase (o : StoreOp) : Nat := bits o.operand.toNat 17 0
def storeStride (o : StoreOp) : Nat := bits o.operand.toNat 35 18

/-- What is wrong with an MSTORE (R65, R78). -/
def storeFault (k : Core) (o : StoreOp) : Option (Nat × Option Int) :=
  if (tabGet {} k.descs o.tile).opn then some (5, none)
  else if storeBase o % 64 ≠ 0 then some (4, some (storeBase o))
  else if storeStride o % 64 ≠ 0 then some (4, none)
  else if !runsFit (storeBase o) (storeStride o) 32 (8 * fmtBits o.fmt) then some (3, some (storeBase o + 31 * storeStride o : Nat))
  else none

/-- What is wrong with an MSCALE (R78). -/
def scaleFault (k : Core) (o : ScaleOp) : Option (Nat × Option Int) := if (tabGet {} k.descs o.tile).opn then some (5, none) else none

-- completion in the engine

/-- The bytes a load sees: of a beat that a core store or delivery wrote while the load was queued, the old or the new value (R68;
free, log 9). -/
def racedBytes (dr : Nat) (olds : Tab (List Byte)) (m : Tab Byte) (a n : Nat) : List Byte :=
  (List.range n).map (fun i =>
    let x := a + i
    let old := tabGet [] olds (x / 64)
    if old ≠ [] && Config.raceOld dr (x / 64) then old.getD (x % 64) 0#8 else tabGet 0#8 m x)

/-- Some beat of a load is poisoned. -/
def loadPoisoned (k : Core) (o : LoadOp) : Bool :=
  let n := partRuns o.fmt o.part
  (List.range n).any (fun i => localPoisoned k (loadBase o + i * loadStride o) (runBytes o.fmt) || (o.mx && localPoisoned k (loadScales o + 16 * i) 16))

/-- An MLOAD complete (R73, R74): run n begins at base + n × stride, its scale bytes at scale base + 16 n. -/
def doLoad (dr : Nat) (k : Core) (o : LoadOp) : Core :=
  let n := partRuns o.fmt o.part
  let es := (List.range n).flatMap (fun i => racedBytes dr o.olds k.lmem (loadBase o + i * loadStride o) (runBytes o.fmt))
  let sc := if o.mx then (List.range n).flatMap (fun i => racedBytes dr o.olds k.lmem (loadScales o + 16 * i) 16) else []
  let t := if o.fmt = fLG4 then o.t else 0x3F800000#32
  { k with parts := tabSet {} k.parts (2 * o.slot + o.part) { valid := true, fmt := o.fmt, mx := o.mx, t, elems := es, scales := sc } }

/-- The 512 exact element values of run `n` of a loaded part (R40–R45). -/
def runVals (p : MxPart) (n : Nat) : List Val :=
  let rb := runBytes p.fmt
  let cs := unpackCodes (fmtBits p.fmt) 512 ((p.elems.drop (n * rb)).take rb)
  let sc := (p.scales.drop (16 * n)).take 16
  ((List.range 512).zip cs).map (fun x =>
    if p.mx then scaledElem p.fmt x.2 (sc.getD (x.1 / 32) 0x7F#8).toNat else decodeElem p.fmt x.2)

/-- chunk_sum of one element of the tile area (R45, R53). -/
def chunkElem (a b : List Val) : Nat × Flg := chunkSum (List.zipWith termMul a b)

/-- Levels pending for a SUB position, lowest first (R76). -/
def pendLevels (d : TileDesc) (p : Nat) : List Nat :=
  (List.range 16).filter (fun l => d.pend.contains (p, l))
/-- The lowest level that is not pending: where the new node goes. -/
def freeLevel (d : TileDesc) (p : Nat) : Nat :=
  ((List.range 16).find? (fun l => !d.pend.contains (p, l))).getD 16
/-- The levels merged into the new chunk value, in order: those below the free level, or all of them when the position closes (R76). -/
def mergeLevels (d : TileDesc) (p : Nat) (closing : Bool) : List Nat :=
  if closing then pendLevels d p else (pendLevels d p).filter (· < freeLevel d p)

/-- fadd(node[l], v) over the merged levels (R54, R76). -/
def mergeValue (node : Nat → Nat) : List Nat → Nat × Flg → Nat × Flg
  | [], v => v
  | l :: ls, (v, g) =>
    let (r, h) := fadd fFP32 (node l) v
    mergeValue node ls (r, flgOr g { h with unf := false })

/-- The FP32 word of a node in the node stack (R62, R76). -/
def nodeAddr (base l i j : Nat) : Nat := base + 8192 * l + 256 * i + 4 * j
def nodeWord (k : Core) (base l i j : Nat) : Nat := bytesNat (tabBytes k.lmem (nodeAddr base l i j) 4)

/-- One chunk finished (R53, R55, R76): summed at every element of its area, merged into the pending nodes, written to the node
stack or, when its position has all its chunks, to the tile. `d0` is the reduction that macStart gives. -/
def doMac (k : Core) (o : MacOp) (d0 : TileDesc) : Core :=
  let tiles0 := if o.opens then k.tiles.filter (fun x => x.1 / 2048 ≠ o.tile) else k.tiles
  let a := tabGet {} k.parts (2 * o.slot)
  let b := tabGet {} k.parts (2 * o.slot + 1)
  let rows := covRows d0.cov
  let cols := covCols d0.cov
  let i0 := rows * (o.sub / covAcross d0.cov)
  let j0 := cols * (o.sub % covAcross d0.cov)
  let av := (List.range rows).map (runVals a)
  let bv := (List.range cols).map (runVals b)
  let closing := decide (tabGet 0 d0.count o.sub + 1 = d0.m)
  let lv := mergeLevels d0 o.sub closing
  let free := freeLevel d0 o.sub
  -- value and flags of every element of the area, row by row
  let vals := ((List.range rows).zip av).flatMap (fun x => ((List.range cols).zip bv).map (fun y =>
    (i0 + x.1, j0 + y.1, mergeValue (fun l => nodeWord k d0.base l (i0 + x.1) (j0 + y.1)) lv (chunkElem x.2 y.2))))
  let g := vals.foldl (fun g v => flgOr g v.2.2.2) {}
  let d1 := { d0 with
    count := tabMod 0 d0.count o.sub (· + 1)
    pend := (d0.pend.filter (fun (x : Nat × Nat) => !(x.1 == o.sub && lv.contains x.2))) ++ (if closing then [] else [(o.sub, free)]) }
  let d1 := { d1 with opn := !closed d1 }
  let k := raiseFlags { k with descs := tabSet {} k.descs o.tile d1, tiles := tiles0 } g
  if closing then
    { k with tiles := vals.foldl (fun t v => tabSet 0 t (2048 * o.tile + 64 * v.1 + v.2.1) (BitVec.ofNat 32 v.2.2.1)) k.tiles }
  else vals.foldl (fun k v => engineWrite k (nodeAddr d0.base free v.1 v.2.1) (natBytes 4 v.2.2.1)) k

/-- MSTORE complete (R46, R47, R78): 32 rows of 64 elements, each converted once. -/
def doStore (k : Core) (o : StoreOp) : Core :=
  let conv (c : Nat) : Nat × Flg := if o.fmt = fFP32 then (c, {}) else toElem o.fmt o.rtz o.sat (decodeFloat fFP32 c)
  let row (i : Nat) : List (Nat × Flg) := (List.range 64).map (fun j => conv (tabGet 0 k.tiles (2048 * o.tile + 64 * i + j)).toNat)
  let k' := (List.range 32).foldl (fun x i => engineWrite x (storeBase o + i * storeStride o) (packCodes (fmtBits o.fmt) ((row i).map (·.1)))) k
  raiseFlags k' ((List.range 32).foldl (fun g i => flgOr g (flagsOf (row i))) {})

/-- MSCALE complete (R43, R78): y ← RNE(y × T) on every element. -/
def doScale (k : Core) (tile : Nat) (t : W32) : Core :=
  let res := (List.range 2048).map (fun i => (2048 * tile + i, fmul fFP32 (tabGet 0 k.tiles (2048 * tile + i)).toNat t.toNat))
  raiseFlags { k with tiles := res.foldl (fun m x => tabSet 0 m x.1 (BitVec.ofNat 32 x.2.1)) k.tiles } (flagsOf (res.map (·.2)))

/-- Multiplier cycles of an MMAC (R73). -/
def macCycles (k : Core) (o : MacOp) : Nat :=
  let fa := (tabGet {} k.parts (2 * o.slot)).fmt
  let fb := (tabGet {} k.parts (2 * o.slot + 1)).fmt
  if fa = fLG4 || fb = fLG4 then 128 else if isFp8 fa || fa = fINT8 then 512 else 256

/-- The matrix engine of a core that works on a task: it runs on through a drain (R85). -/
def engineRuns (k : Core) : Bool := k.mode == .running || k.mode == .draining

/-- A matrix fault (R88): it reports the PC and the word of the matrix instruction; the core's later instructions may have completed. -/
def matrixFault (s : State) (c : Nat) (pc : Int) (word : W32) (f : Nat × Option Int) : State := coreFaultAt s c f.1 word pc f.2 sContextLost

/-- MATRIX_CHUNK_SUMMED (R76, R88): the engine finishes the oldest instruction, an MMAC, or finds its fault. An uncorrectable word met in the
node stack stops the task (R126). -/
def execMatrixChunkSummed (c : Nat) (s : State) : Out :=
  let k := coreOf s c
  if !engineRuns k then .next s
  else match k.queue with
    | .mac o :: rest =>
      (match macStart k o with
       | .error f => .next (matrixFault s c o.pc o.word f)
       | .ok d =>
         if localPoisoned k d.base (stackDepth d.m * 8192) && stackDepth d.m > 0 then .next (coreMemFault s c 0 d.base)
         else .next (wake (countBoth (modCore s c (fun _ => doMac { k with queue := rest } o d)) c k.part 2 0 (macCycles k o)) c))
    | _ => .next s

/-- The instruction that MATRIX_INSTRUCTION_COMPLETE finishes, with the queue that remains: the oldest; or an MLOAD behind the MMAC that runs, on
the other slot (R79). -/
def nextComplete : List MatOp → Option (MatOp × List MatOp)
  | .mac m :: .load l :: rest => if m.slot != l.slot then some (.load l, .mac m :: rest) else none
  | .mac _ :: _ => none
  | op :: rest => some (op, rest)
  | [] => none

/-- MATRIX_INSTRUCTION_COMPLETE (R61, R78, R79, R88): the engine finishes an instruction other than an MMAC, or finds its fault (DEDUCED, log 87). -/
def execMatrixInstructionComplete (c : Nat) (s : State) : Out :=
  let k := coreOf s c
  if !engineRuns k then .next s
  else match nextComplete k.queue with
    | none => .next s
    | some (op, rest) =>
      let k := { k with queue := rest }
      match op with
      | .load o =>
        (match loadFault o with
         | some f => .next (matrixFault s c o.pc o.word f)
         | none =>
           if loadPoisoned k o then .next (coreMemFault s c 0 (loadBase o))
           else
             let (dr, s) := draw s
             .next (wake (modCore s c (fun _ => doLoad dr k o)) c))
      | .store o =>
        (match storeFault k o with
         | some f => .next (matrixFault s c o.pc o.word f)
         | none => .next (wake (modCore s c (fun _ => doStore k o)) c))
      | .scale o =>
        (match scaleFault k o with
         | some f => .next (matrixFault s c o.pc o.word f)
         | none => .next (wake (modCore s c (fun _ => doScale k o.tile (o.t.getD ((tabGet {} k.descs o.tile).t.getD 0x3F800000#32)))) c))
      | .mac _ => .next s

end Sys2Proof.Machine
end

