-- ==== Sys2Proof/Machine/Message.lean ====
section
/-! DEFINITION. The message unit of a core: SEND, RECV, PUT, GET, WAITMSG, BAR, FENCEOP, END, and the delivery of messages (R81, R83, R95–R107, R112, R309). -/

namespace Sys2Proof.Machine

/-- Tasks of a launch (R89). -/
def gridSize (l : Launch) : Nat := l.gx * l.gy * l.gz

/-- A local span of a message operand inside local memory (R65, R99; DEDUCED, log 34). -/
def spanFits (a n : Nat) : Bool := decide (a + n ≤ Config.localBytes)

/-- The bytes of a span of local memory. -/
def localBytesAt (k : Core) (a n : Nat) : List Byte := tabBytes k.lmem a n

/-- The handle a destination index addresses (R112). -/
def isHandle (dst : Nat) : Bool := decide (dst ≥ 2 ^ 31)

/-- The destination index of a SEND names a task of the kernel or a registered handle (R112, R116). -/
def sendTargetOk (s : State) (k : Core) (dst : Nat) : Bool :=
  if isHandle dst then (collOf s k.part (dst - 2 ^ 31)).registered
  else decide (dst < gridSize (launchOf s k.part k.launch))

/-- SEND at issue (R98, R99, R103): the payload is read as it stands after every earlier store. -/
def sendBody (s : State) (rd func ra rb : Nat) (k : Core) : CoreRes :=
  let v := (sRead k ra).toNat
  let w := (sRead k rb).toNat
  let dst := bits v 31 0
  let chan := bits v 35 32
  let src := bits w 17 0
  let len := bits w 30 18
  if rd ≠ 0 || func ≠ 0 || bits v 63 36 ≠ 0 || bits w 63 31 ≠ 0 || src % 64 ≠ 0 || len < 1 || len > 4096 then .fault 7 none
  else if !sendTargetOk s k dst then .fault 7 none
  else if !spanFits src len then .fault 3 (some src)
  else if localPoisoned k src len then .poisoned src
  else
    let key := dst * 16 + chan
    let m : Msg := { src := k.task, dst, chan, cseq := tabGet 0 k.cseq key, payload := localBytesAt k src len }
    .ok (nextPc { k with
      sends := k.sends ++ [{ sid := k.nextId, since := s.pwr.meridian, msg := m }]
      nextId := k.nextId + 1
      cseq := tabSet 0 k.cseq key ((m.cseq + 1) % 65536) })

/-- SEND (R98, R99): at most 8 not yet accepted (R102) (DEDUCED, log 94). -/
def execSend (c : Nat) (rd ra rb : BitVec 5) (func : BitVec 8) (pred : BitVec 3) (s : State) : Out :=
  if (coreOf s c).sends.length ≥ 8 then .next s
  else .next (issue s c (wordT 40 rd ra rb func pred) (pred == 0) (sendBody s rd.toNat func.toNat ra.toNat rb.toNat))

/-- A SEND of core `c` is accepted: it leaves the core's list and counts (R104, R416). -/
def sendGone (s : State) (c : Nat) (o : OutSend) : State :=
  wake (countBoth (modCore s c (fun k => { k with sends := k.sends.filter (fun y => y.sid != o.sid) })) c (coreOf s c).part 5 3 1) c

/-- A SEND to another module leaves for it; it is accepted by the response (R98, R109, R308). -/
def sendAway (s : State) (c mid : Nat) (o : OutSend) : State :=
  let vd := (partOf s (coreOf s c).part).vd
  let s := modCore s c (fun k => { k with sends := k.sends.map (fun y => if y.sid = o.sid then { y with sent := true } else y) })
  sendPacket s (mkPacket s 0x01 mid vd.vdid vd.edition o.msg.dst o.msg.cseq false
    (BitVec.ofNat 64 (o.msg.src % 2 ^ 32 + o.msg.chan * 2 ^ 32)) o.msg.payload)

/-- A trigger that reaches its handle on the front's module (R112, R116): none where the handle takes no such trigger. -/
def acceptTrigger (s : State) (n l : Nat) (m : Msg) : Option State :=
  let h := m.dst - 2 ^ 31
  let e := bytesNat (m.payload.take 4)
  let co := collOf s n h
  if !co.registered || !co.task || (e ≠ co.epoch && e ≠ (co.epoch + 1) % 2 ^ 32) then none
  else some (modColl s n h (fun y => { y with launch := l, sent := if y.launch = l then y.sent else [], arrived := y.arrived ++ [(m.src, e)] }))

/-- The outcome of accepting a SEND. -/
def acceptSend (s : State) (c : Nat) (o : OutSend) : State :=
  let k := coreOf s c
  let n := k.part
  let l := k.launch
  let x := launchOf s n l
  let m := o.msg
  if isHandle m.dst then
    if !(collOf s n (m.dst - 2 ^ 31)).registered || !(collOf s n (m.dst - 2 ^ 31)).task then messageFault s c sContextLost
    else if !(partOf s n).vd.front then sendAway s c (frontModule (partOf s n).vd) o
    else match acceptTrigger s n l m with
      | none => messageFault s c sContextLost
      | some s => sendGone s c o
  else if x.lo ≤ m.dst && m.dst < x.hi then
    if (tabGet {} x.tasks m.dst).state = .done then messageFault s c sContextLost
    else if !spaceFor s n l m then s
    else sendGone (modLaunch s n l (fun y => { y with flight := y.flight ++ [m] })) c o
  else
    match homeMember (partOf s n).vd (gridSize x) m.dst with
    | none => s
    | some h => sendAway s c h.modId o

/-- SEND_ACCEPTED (R98, R104): a SEND is accepted when its space is reserved; one to another module goes there, and its response accepts it. An
earlier SEND of the same channel that still waits holds it back (R97). A SEND to a DONE task completes with FAULT, a trigger for a wrong epoch faults (R116). -/
def execSendAccepted (c k : Nat) (s : State) : Out :=
  match (coreOf s c).sends.find? (fun o => o.sid == k) with
  | none => .next s
  | some o =>
    let ahead := ((coreOf s c).sends.takeWhile (fun y => y.sid != k)).any (fun y => y.msg.dst == o.msg.dst && y.msg.chan == o.msg.chan)
    if ahead || o.sent || (coreOf s c).mode ≠ .running then .next s else .next (acceptSend s c o)

/-- A RECV, WAITMSG or BAR that blocks: it stops at once for a pending pre-emption, and is executed again after the restore (R85). -/
def blockOn (k : Core) (b : Blocked) : Core :=
  if k.preemptReq then { k with mode := .draining, cause := 0 } else { k with blocked := b }

/-- RECV at issue (R99, R100). -/
def recvBody (s : State) (rd func ra rb : Nat) (k : Core) : CoreRes :=
  let v := (sRead k ra).toNat
  let w := (sRead k rb).toNat
  let any := bitOf func 7
  let buf := bits w 17 0
  let cap := bits w 30 18
  let src := bits v 31 0
  if func % 128 ≠ 0 || bits v 63 36 ≠ 0 || bits w 63 31 ≠ 0 || buf % 64 ≠ 0 || cap < 64 || cap > 4096 then .fault 7 none
  else if !any && !isHandle src && src ≥ gridSize (launchOf s k.part k.launch) then .fault 7 none
  else if !spanFits buf cap then .fault 3 (some buf)
  else match takeMessage k rd src (bits v 35 32) any buf cap with
    | some r => r
    | none => .ok (blockOn k (.recv rd src (bits v 35 32) any buf cap s.pwr.meridian))

/-- PUT and GET at issue (R99, R102, R103, R154). -/
def xferBody (s : State) (c : Nat) (write : Bool) (rd func ra rb : Nat) (k : Core) : CoreRes :=
  let va := (sRead k ra).toNat
  let w := (sRead k rb).toNat
  let loc := bits w 17 0
  let len := bits w 34 18
  if rd ≠ 0 || func ≠ 0 || bits va 63 52 ≠ 0 || va % 64 ≠ 0 || bits w 63 35 ≠ 0 || loc % 64 ≠ 0 || len % 64 ≠ 0 || len < 64 || len > 65536 then
    .fault 7 none
  else if !spanFits loc len then .fault 3 (some loc)
  else if write && localPoisoned k loc len then .poisoned loc
  else
    let x : Xfer := { xid := k.nextId, write, va, lbase := loc, len, data := if write then localBytesAt k loc len else [], origin := c
                      graph := (launchOf s k.part k.launch).graph }
    .ok (nextPc { k with xfers := k.xfers ++ [x], nextId := k.nextId + 1 })

/-- PUT (R99, R102): at most 16 PUT and GET not yet complete. -/
def execPut (c : Nat) (rd ra rb : BitVec 5) (func : BitVec 8) (pred : BitVec 3) (s : State) : Out :=
  if (coreOf s c).xfers.length ≥ 16 then .next s
  else .next (issue s c (wordT 42 rd ra rb func pred) (pred == 0) (xferBody s c true rd.toNat func.toNat ra.toNat rb.toNat))

/-- GET (R99, R102). -/
def execGet (c : Nat) (rd ra rb : BitVec 5) (func : BitVec 8) (pred : BitVec 3) (s : State) : Out :=
  if (coreOf s c).xfers.length ≥ 16 then .next s
  else .next (issue s c (wordT 43 rd ra rb func pred) (pred == 0) (xferBody s c false rd.toNat func.toNat ra.toNat rb.toNat))

/-- WAITMSG at issue (R99, R101). -/
def waitmsgBody (s : State) (rd func ra rb : Nat) (k : Core) : CoreRes :=
  let v := (sRead k ra).toNat
  if func ≠ 0 || bits v 63 16 ≠ 0 then .fault 7 none
  else if readyMask k v ≠ 0 then .ok (nextPc (sWrite k rd (BitVec.ofNat 64 (readyMask k v))))
  else .ok (blockOn k (.waitmsg rd v (sRead k rb).toNat s.pwr.meridian))

/-- WAITMSG (R101). -/
def execWaitmsg (c : Nat) (rd ra rb : BitVec 5) (func : BitVec 8) (pred : BitVec 3) (s : State) : Out :=
  .next (issue s c (wordT 44 rd ra rb func pred) (pred == 0) (waitmsgBody s rd.toNat func.toNat ra.toNat rb.toNat))

/-- WAITMSG_TIMEOUT (R101): a WAITMSG with a limit writes zero. -/
def execWaitmsgTimeout (c : Nat) (s : State) : Out :=
  match (coreOf s c).blocked with
  | .waitmsg rd _ timeout _ =>
    if timeout = 0 || (coreOf s c).mode ≠ .running then .next s
    else .next (modCore s c (fun k => { nextPc (sWrite k rd 0) with blocked := .none }))
  | _ => .next s

/-- BAR at issue (R99, R107, R116): the core blocks in the barrier. -/
def barBody (s : State) (rd func ra rb : Nat) (k : Core) : CoreRes :=
  let v := (sRead k ra).toNat
  let count := (sRead k rb).toNat
  if rd ≠ 0 || func ≠ 0 || v ≥ 8 || count ≥ 2 ^ 32 || count < 2 || !(launchOf s k.part k.launch).coresident then .fault 7 none
  else if ((tabGet {} (launchOf s k.part k.launch).bars v).owed).contains k.task then .ok (nextPc k)
  else .ok (blockOn k (.bar v count s.pwr.meridian))

/-- The launch's number on the module that started it, with that module (R107; log 33). -/
def launchOrigin (s : State) (n l : Nat) : Nat × Nat := ((launchOf s n l).reportTo).getD (s.glb.moduleId, l)

/-- BAR (R107): the arrival is recorded here and told to the other members with its phase, once. A task whose arrival was counted before a
pre-emption passes when its phase has completed. -/
def execBar (c : Nat) (rd ra rb : BitVec 5) (func : BitVec 8) (pred : BitVec 3) (s : State) : Out :=
  let word := wordT 48 rd ra rb func pred
  let s' := issue s c word (pred == 0) (barBody s rd.toNat func.toNat ra.toNat rb.toNat)
  let k := coreOf s c
  let b := (sRead k ra.toNat).toNat
  let count := (sRead k rb.toNat).toNat
  let bar := tabGet {} (launchOf s k.part k.launch).bars b
  let blocks := coreReady k && (coreOf s' c).part == k.part && (coreOf s' c).mode != .idle && (coreOf s' c).pc == k.pc &&
    ((coreOf s' c).mode == .draining || (match (coreOf s' c).blocked with | .bar _ _ _ => true | _ => false))
  if blocks then
    match barArrive s' k.part k.launch b count k.task with
    | none => .next (coreFaultAt s' c 7 word k.pc none sContextLost)
    | some t =>
      let o := launchOrigin s k.part k.launch
      let pay := natBytes 8 (b + count * 2 ^ 32) ++ natBytes 8 (o.1 + o.2 * 2 ^ 32) ++ natBytes 8 bar.phase
      if bar.arrived.contains k.task then .next t
      else .next ((otherMembers s k.part).foldl (fun t mid => sendControl t k.part mid k.task ctlBar 0 pay) t)
  else if coreReady k && bar.owed.contains k.task && (coreOf s' c).mode == .running && (coreOf s' c).pc == k.pc + 1 then
    -- a task that passes by an arrival counted before no longer holds one
    .next (modLaunch s' k.part k.launch (fun x => { x with bars := tabMod {} x.bars b (fun y => { y with owed := y.owed.filter (· != k.task) }) }))
  else .next s'

/-- A BAR whose count differs in its phase faults in the task's core, here or on the task's home module (R107, R116). -/
def barFault (s : State) (n launch task : Nat) : State :=
  let x := launchOf s n launch
  let t := tabGet {} x.tasks task
  if x.lo ≤ task && task < x.hi then (if t.state = .bound then messageFault s t.core sContextLost else s)
  else match homeMember (partOf s n).vd (gridSize x) task with
    | some h =>
      let o := launchOrigin s n launch
      sendControl s n h.modId task ctlBarFault 0 (natBytes 8 (o.1 + o.2 * 2 ^ 32))
    | none => s

/-- An arrival of another module for a given phase (R107): one of a phase that has ended here is not counted again, one of a later phase waits. -/
def barTold (s : State) (n launch b count task phase : Nat) : State :=
  let bar := tabGet {} (launchOf s n launch).bars b
  if phase < bar.phase then s
  else if bar.phase < phase then
    modLaunch s n launch (fun x => { x with bars := tabMod {} x.bars b (fun y => { y with ahead := y.ahead ++ [(phase, task, count)] }) })
  else (barArrive s n launch b count task).getD (barFault s n launch task)

/-- BAR_ARRIVAL (R107): an arrival of a task reaches the barrier point in the phase under way. -/
def execBarArrival (n launch barrier count task : Nat) (s : State) : Out :=
  if !(launchOf s n launch).live || barrier ≥ 8 then .next s
  else .next (barTold s n launch barrier count task (tabGet {} (launchOf s n launch).bars barrier).phase)

/-- FENCEOP (R70, R81): with no class selected it is illegal; it completes when the selected classes have. -/
def execFenceop (c : Nat) (m st g x : Bool) (rsv : BitVec 22) (s : State) : Out :=
  let word := wordFenceop m st g x rsv
  .next (issue s c word (rsv == 0 && (m || st || g || x)) (fun k =>
    if fenceDone k m g x then .ok (nextPc k) else .ok { k with blocked := .fence m st g x }))

/-- END (R83, R105): waits for the matrix queue and the outstanding messages, then the task ends. Its unused bits must be zero
(DEDUCED, log 17). -/
def execEndTask (c : Nat) (rsv : BitVec 26) (s : State) : Out :=
  let s' := issue s c (wordJ 14 rsv) (rsv == 0) (fun k => .ok { k with blocked := .ending })
  if coreReady (coreOf s c) then .next (wake s' c) else .next s'

/-- The key of a sender's channel at a receiver (R309). -/
def rxKey (m : Msg) : Nat := (m.src * 2 ^ 32 + m.dst) * 16 + m.chan

/-- The response to a SEND of another module, under its task, CSEQ, sender and channel (R109; layout of log 33). A message of this module's own engines
needs none. -/
def answerSend (s : State) (n mid : Nat) (m : Msg) (ok : Bool) : State :=
  if mid = s.glb.moduleId then s
  else
    let vd := (partOf s n).vd
    sendPacket s (mkPacket s 0x04 mid vd.vdid vd.edition m.dst m.cseq false (BitVec.ofNat 64 ((if ok then 0 else 2) + 2 ^ 9))
      (natBytes 8 (m.src + m.chan * 2 ^ 32)))

/-- Messages that are due in their channel's order are placed where there is space, and answered; one to a DONE task is refused with FAULT (R95, R98, R109,
R309); with fuel. -/
def placeDue (n l : Nat) : Nat → State → State
  | 0, s => s
  | k + 1, s =>
    let x := launchOf s n l
    let dead (m : Msg) : Bool := (tabGet {} x.tasks m.dst).state == .done
    match x.early.find? (fun e => e.2.cseq == tabGet 0 x.rx (rxKey e.2) && (dead e.2 || spaceFor s n l e.2)) with
    | none => s
    | some (mid, m) =>
      let s := modLaunch s n l (fun y => { y with
        early := y.early.erase (mid, m)
        rx := tabSet 0 y.rx (rxKey m) ((m.cseq + 1) % 65536) })
      if dead m then placeDue n l k (answerSend s n mid m false)
      else placeDue n l k (answerSend (placeMessage s n l m) n mid m true)

/-- A message that arrives from another module, or from a collective engine (R309): placed in CSEQ order per sender, task and channel. One that was placed
before, and is given again, is only answered. -/
def placeRemote (s : State) (n l mid : Nat) (m : Msg) : State :=
  let d := (m.cseq + 65536 - tabGet 0 (launchOf s n l).rx (rxKey m)) % 65536
  if d ≥ 32768 then answerSend s n mid m true
  else
    let s := modLaunch s n l (fun y => if y.early.contains (mid, m) then y else { y with early := y.early ++ [(mid, m)] })
    placeDue n l (launchOf s n l).early.length s

/-- Messages of other modules that waited for space in the launch of core `c` (R98). -/
def placeWaiting (s : State) (c : Nat) : State :=
  let k := coreOf s c
  placeDue k.part k.launch (launchOf s k.part k.launch).early.length s

/-- RECV (R100): blocks until a matching message is present. -/
def execRecv (c : Nat) (rd ra rb : BitVec 5) (func : BitVec 8) (pred : BitVec 3) (s : State) : Out :=
  let t := drainFor (issue s c (wordT 41 rd ra rb func pred) (pred == 0) (recvBody s rd.toNat func.toNat ra.toNat rb.toNat)) c
  .next (placeWaiting t c)

/-- The live launch a message belongs to: the one that has it in flight in its channel's order, or one homed here for its task. -/
def flightLaunch (s : State) (n : Nat) (m : Msg) : Option Nat :=
  (tabKeys (fun _ x => x.live && x.flight.find? (fun y => rxKey y == rxKey m) == some m) (partOf s n).launches).head?
def homeLaunch (s : State) (n : Nat) (m : Msg) : Option Nat :=
  (tabKeys (fun _ x => x.live && decide (x.lo ≤ m.dst) && decide (m.dst < x.hi) && !(decide (x.lo ≤ m.src) && decide (m.src < x.hi))) (partOf s n).launches).head?

/-- A trigger of another module reaches the front (R112, R116): accepted for the launch of its task, or answered FAULT. -/
def triggerHeard (s : State) (n mid : Nat) (m : Msg) : State :=
  let l := ((tabKeys (fun _ x => x.live && decide (m.src < gridSize x)) (partOf s n).launches).head?).getD 0
  match acceptTrigger s n l m with
  | some s => answerSend s n mid m true
  | none => answerSend s n mid m false

/-- The module that a forwarding entry of the core map gives for a task homed here, in the copy of the partition's lowest router (R94). Places of 1,024 and
above stand for modules (DESIGN CHOICE, log 139). -/
def forwardPlace (s : State) (n l t : Nat) : Option Nat :=
  let v := tabGet 0 (clusterOf s ((assignedOf s n isCompute).headD 0)).coreMap (mapKey l t)
  if v > 1024 then some (v - 1025) else none

/-- A message goes on to the module that runs its task, under its sender's module (R94, R308). -/
def forwardMessage (s : State) (n from_ to_ : Nat) (m : Msg) : State :=
  let vd := (partOf s n).vd
  sendPacket s { mkPacket s 0x01 to_ vd.vdid vd.edition m.dst m.cseq false (BitVec.ofNat 64 (m.src % 2 ^ 32 + m.chan * 2 ^ 32)) m.payload with src := from_ }

/-- MESSAGE_DELIVER (R95–R98, R100, R101, R112): a SEND packet of a module reaches its destination and is placed by the task's state. -/
def execMessageDeliver (src : Origin) (m : Msg) (s : State) : Out :=
  let n := src.n
  if isHandle m.dst then (if src.modId = s.glb.moduleId then .next s else .next (triggerHeard s n src.modId m))
  else match flightLaunch s n m with
  | some l =>
    let s := modLaunch s n l (fun x => { x with flight := dropFirst (fun y => y == m) x.flight })
    (match forwardPlace s n l m.dst with
     | some mid => .next (forwardMessage s n s.glb.moduleId mid m)
     | none => .next (placeMessage s n l m))
  | none =>
    match homeLaunch s n m with
    | some l =>
      if src.modId = s.glb.moduleId then .next s
      else (match forwardPlace s n l m.dst with
        | some mid => .next (forwardMessage s n src.modId mid m)
        | none => .next (placeRemote s n l src.modId m))
    | none => .next s

/-- The response to a SEND that this module sent away (R98, R109): accepted, or a message fault where its task runs. -/
def sendAnswered (s : State) (n dst cseq who : Nat) (ok : Bool) : State :=
  let is (o : OutSend) : Bool := o.sent && o.msg.dst == dst && o.msg.cseq == cseq && o.msg.src == who % 2 ^ 32 && o.msg.chan == who / 2 ^ 32
  match s.cores.find? (fun x => x.2.mode != .idle && x.2.part == n && x.2.sends.any is) with
  | some (c, k) =>
    if !ok then messageFault s c sContextLost
    else (match k.sends.find? is with | some o => sendGone s c o | none => s)
  | none =>
    if ok then modPart s n (fun p => { p with saves := p.saves.map (fun r => { r with core := { r.core with sends := r.core.sends.filter (fun o => !is o) } }) })
    else if (partOf s n).saves.any (fun r => r.core.sends.any is) then loseCtx s n sContextLost none 7 1 false
    else s

/-- CORE_MAP_UPDATE (R94): one router's copy of the core map, for a task of a launch: the core it is bound to, or, as a forwarding entry, 1,024 plus the
module it runs on. A router holds 4,096 entries. -/
def execCoreMapUpdate (router launch task place : Nat) (s : State) : Out :=
  if (sliceOf s router).state = .assigned && router < 64 && (clusterOf s router).coreMap.length < 4096 then
    .next (modCluster s router (fun x => { x with coreMap := tabSet 0 x.coreMap (mapKey launch task) (place + 1) }))
  else .next s

end Sys2Proof.Machine
end

