-- ==== Sys2Proof/Machine/SaveRecord.lean ====
section
/-! DEFINITION. The save record of a pre-empted task as bytes, and its place in the context save area (R85–R87, R126, R172). -/

namespace Sys2Proof.Machine

/-- Bytes brought to a length: filled up with zeros, and no longer than it. -/
def padTo (n : Nat) (bs : List Byte) : List Byte := bs.take n ++ List.replicate (n - bs.length) 0#8
/-- `n` bytes from offset `o`, and the number they spell (R6). -/
def cutAt (bs : List Byte) (o n : Nat) : List Byte := (bs.drop o).take n
def numAt (bs : List Byte) (o n : Nat) : Nat := bytesNat (cutAt bs o n)

/-- End of the highest open node stack (R86). -/
def stackEnd (k : Core) : Nat :=
  k.descs.foldl (fun a x => if x.2.opn then Nat.max a (x.2.base + stackDepth x.2.m * 8192) else a) 0
def savedExtent (k : Core) : Nat := Nat.max k.clive (stackEnd k)

/-- Where local memory begins in the record, and the record's size (R86). -/
def recordHead : Nat := 0x2B000
def recordSize (e : Nat) : Nat := recordHead + e

-- from a core to its record (R86)

def recordHeader (k : Core) (e : Nat) : List Byte :=
  padTo 64 (natBytes 4 1 ++ natBytes 4 (recordSize e) ++ natBytes 8 (k.pc % 65536).toNat ++ natBytes 8 (k.task % 2 ^ 32) ++ natBytes 4 e ++
    natBytes 1 k.cause)

/-- A tile descriptor (R86 names its contents; DESIGN CHOICE, log 152): byte 0 the open flag, 1 the coverage, 2 whether T is recorded, 4 s, 8 m, 12 the
base, 16 T, and from 32 the counts. -/
def tileBytes (d : TileDesc) : List Byte :=
  natBytes 1 (b2n d.opn) ++ natBytes 1 d.cov ++ natBytes 2 (b2n d.t.isSome) ++ natBytes 4 d.s ++ natBytes 4 d.m ++ natBytes 4 d.base ++
  natBytes 16 (d.t.getD 0).toNat ++ (List.range 16).flatMap (fun p => natBytes 2 (tabGet 0 d.count p))

/-- A part descriptor (R86 names its contents; DESIGN CHOICE, log 152): byte 0 the format, 1 MX, 2 valid, 4 T. -/
def partBytes (p : MxPart) : List Byte :=
  natBytes 1 p.fmt ++ natBytes 1 (b2n p.mx) ++ natBytes 2 (b2n p.valid) ++ natBytes 12 p.t.toNat

/-- One operand slot (R86). -/
def slotBytes (k : Core) (i : Nat) : List Byte :=
  let a := tabGet {} k.parts (2 * i)
  let b := tabGet {} k.parts (2 * i + 1)
  padTo 0x4000 a.elems ++ padTo 0x8000 b.elems ++ padTo 0x200 a.scales ++ padTo 0x400 b.scales ++ padTo 0x200 (partBytes a ++ partBytes b)

/-- The record of a core up to its local memory. -/
def coreBytes (k : Core) (e : Nat) : List Byte :=
  recordHeader k e ++ (List.range 32).flatMap (fun i => natBytes 8 (sRead k i).toNat) ++ (List.range 8).flatMap (fun i => natBytes 8 (pRead k i).toNat) ++
  padTo 128 (natBytes 8 (cflags k) ++ natBytes 8 k.clive) ++ (List.range 8).flatMap (fun i => tileBytes (tabGet {} k.descs i)) ++
  List.replicate 0xC00 0#8 ++ (List.range 32).flatMap (fun i => natBytes 128 (vRead k i).toNat) ++
  (List.range 16384).flatMap (fun i => natBytes 4 (tabGet 0 k.tiles i).toNat) ++ slotBytes k 0 ++ slotBytes k 1

/-- The whole record (R86). -/
def saveBytes (k : Core) (e : Nat) : List Byte := coreBytes k e ++ tabBytes k.lmem 0 e

-- from a record to a core (R87)

/-- A table of `n` entries of `w` bytes from offset `o`. -/
def wordsAt {b : Nat} (bs : List Byte) (o w n : Nat) : Tab (BitVec b) :=
  (List.range n).foldr (fun i t => if numAt bs (o + w * i) w % 2 ^ b = 0 then t else (i, BitVec.ofNat b (numAt bs (o + w * i) w)) :: t) []

/-- A tile's descriptor; its pending levels are the set bits of a count that is not complete (R76). -/
def tileAt (bs : List Byte) (o : Nat) : TileDesc :=
  let m := numAt bs (o + 8) 4
  let n (p : Nat) : Nat := numAt bs (o + 32 + 2 * p) 2
  let ps := List.range 16
  { opn := numAt bs o 1 = 1, cov := numAt bs (o + 1) 1, s := numAt bs (o + 4) 4, m, base := numAt bs (o + 12) 4
    t := if numAt bs (o + 2) 1 = 1 then some (BitVec.ofNat 32 (numAt bs (o + 16) 4)) else none
    count := ps.foldr (fun p t => if n p = 0 then t else (p, n p) :: t) []
    pend := ps.flatMap (fun p => if n p = m then [] else (bitList 16 (n p)).map (fun l => (p, l))) }

/-- A part of a slot at offset `o`: its elements from `eo`, its scales from `so`, its descriptor at `d`. -/
def partAt (bs : List Byte) (part eo so d : Nat) : MxPart :=
  if numAt bs (d + 2) 1 = 0 then {}
  else
    let fmt := numAt bs d 1
    let mx := numAt bs (d + 1) 1 = 1
    { valid := true, fmt, mx, t := BitVec.ofNat 32 (numAt bs (d + 4) 4), elems := cutAt bs eo (partRuns fmt part * runBytes fmt)
      scales := if mx then cutAt bs so (16 * partRuns fmt part) else [] }

/-- The record's contents put into a core, its local memory apart (R86, R87). -/
def readRecord (k : Core) (bs : List Byte) : Core :=
  { k with
    pc := (numAt bs 8 2 : Nat), task := numAt bs 16 4, cause := numAt bs 28 1
    sreg := (wordsAt bs 0x40 8 32).filter (fun x => x.1 != 0), preg := (wordsAt bs 0x140 8 8).filter (fun x => x.1 != 0)
    nv := bitOf (numAt bs 0x180 8) 0, ovf := bitOf (numAt bs 0x180 8) 1, unf := bitOf (numAt bs 0x180 8) 2, clive := numAt bs 0x188 8
    descs := tabOf {} ((List.range 8).map (fun i => (i, tileAt bs (0x200 + 64 * i))))
    vreg := wordsAt bs 0x1000 128 32, tiles := wordsAt bs 0x2000 4 16384
    parts := tabOf {} ((List.range 2).flatMap (fun i =>
      let o := 0x12000 + 0xC800 * i
      [(2 * i, partAt bs 0 o (o + 0xC000) (o + 0xC600)), (2 * i + 1, partAt bs 1 (o + 0x4000) (o + 0xC200) (o + 0xC610))])) }

-- its place (R85, R172)

/-- The places of save records in the partition's context save area: one for each core, with its parking area behind it (R106, R172). -/
def saveSlots (p : Part) : List Nat :=
  (p.carve.areas.filter (fun a => a.1 == 1)).flatMap (fun a => (List.range 16).map (fun i => chanPa a.2.1 + (a.2.2.1 + 372 * i) * 4096))

/-- A place that holds no record. -/
def freeSave (p : Part) : Option Nat := (saveSlots p).find? (fun a => !p.saves.any (fun r => r.place == some a))

/-- A record written line by line at its place; a line takes the poison of what it holds (R126), `bad` telling which of the record's 64-byte words have it. -/
def putRecord (s : State) (n pa : Nat) (bs : List Byte) (bad : Nat → Bool) : State :=
  (List.range ((bs.length + 127) / 128)).foldl (fun s i =>
    memWrite s n (redirect s (pa + 128 * i)) (cutAt bs (128 * i) 128) (bad (2 * i) || bad (2 * i + 1))) s

/-- The bytes of a record of a size at its place. -/
def recordAt (s : State) (pa size : Nat) : List Byte :=
  (List.range ((size + 127) / 128)).flatMap (fun i => tabBytes s.mem (redirect s (pa + 128 * i)) (Nat.min 128 (size - 128 * i)))

/-- Whether a 64-byte word of a record at its place is poisoned. -/
def recordPoison (s : State) (pa w : Nat) : Bool := memPoisoned s (redirect s (pa + 64 * w)) 64

end Sys2Proof.Machine
end

