-- ==== Sys2Proof/Machine/Binding.lean ====
section
/-! DEFINITION. Binding, pre-emption, save and restore of tasks (R82, R85–R87, R91–R96, R106, R126). -/

namespace Sys2Proof.Machine

/-- The cores of a partition, lowest global index first (R30, R91). -/
def coresOf (s : State) (n : Nat) : List Nat :=
  (assignedOf s n isCompute).flatMap (fun c => (List.range 16).map (fun i => c * 16 + i))
/-- Free cores that may take a task: none on a slice that leaves (R262), nor before its cluster's interpolator has the count again (R408). Tasks homed
on a partition that goes entirely have no other core, and end there (DESIGN CHOICE, log 139). -/
def idleCores (s : State) (n : Nat) : List Nat :=
  (coresOf s n).filter (fun c => (coreOf s c).mode == .idle && (clusterOf s (c / 16)).synced &&
    (!(partOf s n).vd.leaving.contains (c / 16) || goesEntirely s n))

/-- A share of a kernel that no other module shares (R90). -/
def alone (x : Launch) : Bool := x.left.isEmpty && x.reportTo.isNone
/-- Cores that CORESIDENT shares which are ready, or bind, keep for their tasks (R93). -/
def keptCores (s : State) (n : Nat) : Nat := ((partOf s n).launches.map (fun x => if x.2.live && (x.2.ready || x.2.go) then x.2.hi - x.2.next else 0)).sum
/-- A share's tasks all have a core now. -/
def shareFits (s : State) (n : Nat) (x : Launch) : Bool := decide (x.hi - x.lo + keptCores s n ≤ (idleCores s n).length)

/-- The launch whose next task the binding engine takes: the oldest with a task left. A CORESIDENT one binds only when all tasks of its kernel can, and
keeps the cores that its share needs; a later launch goes before one that cannot bind (R91, R93 give no order; DESIGN CHOICE, log 150). -/
def bindLaunch (s : State) (n : Nat) : Option Nat :=
  (tabKeys (fun _ x => x.live && decide (x.next < x.hi) &&
    (if x.coresident then x.go || decide (x.next > x.lo) || (alone x && shareFits s n x) else decide (keptCores s n < (idleCores s n).length)))
    (partOf s n).launches).head?

/-- The shares of a CORESIDENT kernel are ready everywhere: all modules may bind (R93). -/
def goAll (s : State) (n l : Nat) : State :=
  let x := launchOf s n l
  if !x.live || !x.ready || x.unready ≠ [] || x.go || x.reportTo.isSome then s
  else x.left.foldl (fun s m => sendControl s n m l ctlGo 0 []) (modLaunch s n l (fun y => { y with go := true }))

/-- The oldest CORESIDENT share that can bind all its tasks is ready: it keeps their cores, and the module that started the kernel is told (R93; log 33). -/
def readyStep (s : State) (n : Nat) : State :=
  match (tabKeys (fun _ x => x.live && x.coresident && !x.ready && !x.go && !alone x && decide (x.next = x.lo) && shareFits s n x) (partOf s n).launches).head? with
  | none => s
  | some l =>
    let s := modLaunch s n l (fun y => { y with ready := true })
    match (launchOf s n l).reportTo with
    | some (mid, id) => sendControl s n mid id ctlReady 0 []
    | none => goAll s n l

/-- Every router of the partition has room for a core-map entry (R94). -/
def mapRoom (s : State) (n : Nat) : Bool := (assignedOf s n isCompute).all (fun c => decide ((clusterOf s c).coreMap.length < 4096))
/-- An entry set in every router's copy of the core map (R94). -/
def mapEverywhere (s : State) (n launch task core : Nat) : State :=
  let cs := assignedOf s n isCompute
  { s with clusters := cs.foldl (fun t c => tabMod {} t c (fun x => { x with coreMap := tabSet 0 x.coreMap (mapKey launch task) (core + 1) })) s.clusters }

/-- The dispatch engine that is home to a partition (R91). -/
def homeDispatch (s : State) (n : Nat) : Nat := ((assignedOf s n isCompute).headD 0) / 16

/-- Words of a program image. -/
def imageWords (bs : List Byte) : List W32 := (pieces 4 bs).map (fun b => BitVec.ofNat 32 (bytesNat b))

/-- A core at the start of a task (R82). -/
def startCore (k : Core) (n l t : Nat) (x : Launch) (image : List W32) (of_ : Nat × Nat × Nat) (args : List Byte) : Core :=
  { mode := .running, part := n, launch := l, task := t, pc := x.entry, image, imageOf := some of_
    sreg := tabSet 0 (tabSet 0 [] 1 (BitVec.ofNat 64 args.length)) 2 (BitVec.ofNat 64 t)
    clive := cliveOf x.extent, lmem := tabPut [] 0 args, nextId := k.nextId }

/-- What names a launch's program image: the context, the image's address and its length (R82; DESIGN CHOICE, log 153). -/
def imageName (s : State) (n : Nat) (x : Launch) : Nat × Nat × Nat := ((partOf s n).ctx.tag, x.program, x.progLen)

/-- The dispatch engine at work for a launch of a partition (R91, R204). -/
def dispatchOf (s : State) (n : Nat) (x : Launch) : Master := .dispatch (homeDispatch s n + 4 * x.graph)

/-- The program image for a task on core `c`, in bytes: as it is resident there, else read from memory (R82). -/
def imageFor (s : State) (n c : Nat) (x : Launch) (ext : List Byte) : ReadRes :=
  if (coreOf s c).imageOf = some (imageName s n x) then .ok ((coreOf s c).image.flatMap (fun w => natBytes 4 w.toNat))
  else readSpan s (dispatchOf s n x) n x.program (4 * x.progLen) ext

/-- The image and the argument block of a launch translated for its dispatch engine (R155, R167). -/
def bindTranslate (s : State) (n : Nat) (x : Launch) : State :=
  let h : Nat × Nat := (1024 + homeDispatch s n, Nat.min (x.seq.getD (2 ^ 32)) (2 ^ 32))
  translateSpan (translateSpan s (dispatchOf s n x) n x.program (4 * x.progLen) false h) (dispatchOf s n x) n x.args x.argLen false h

/-- TASK_BIND (R82, R91, R93–R95): the next task goes to the first free core; its image and argument block are loaded, its waiting messages
delivered. The argument block of a step's node begins with the address of the step's descriptor (R197; DEDUCED, log 44). `ext` holds what memory outside the
module returned for the image and the argument block (DESIGN CHOICE, log 172). -/
def execTaskBind (n : Nat) (ext : List Byte) (s : State) : Out :=
  let p := partOf s n
  if !p.vd.used || (p.ctx.state ≠ .active && p.ctx.state ≠ .recovering) then .next s
  else match bindLaunch s n, (idleCores s n).head? with
    | some l, some c =>
      let x := launchOf s n l
      let t := x.next
      let m := dispatchOf s n x
      let cmd := match x.seq with | some q => if q < 2 ^ 32 then some (2, q) else none | none => none
      if !mapRoom s n then .next s
      else
        let s := bindTranslate s n x
        match imageFor s n c x ext, readSpan s m n x.args x.argLen (ext.drop (4 * x.progLen)) with
        | .ok img, .ok args =>
          let args := (if x.descriptor = 0 then [] else natBytes 8 x.descriptor) ++ args
          let s := modCore s c (fun k => startCore k n l t x (imageWords img) (imageName s n x) args)
          let s := modLaunch s n l (fun y => { y with next := t + 1, tasks := tabMod {} y.tasks t (fun z => { z with state := .bound, core := c }) })
          .next (placeWaiting (drainFor (mapEverywhere s n l t c) c) c)
        | .ok _, r => .next (engineFails s n cmd (homeDispatch s n) x.args r)
        | r, _ => .next (engineFails s n cmd (homeDispatch s n) x.program r)
    | none, _ => .next (readyStep s n)
    | _, _ => .next s

/-- PREEMPT_REQUEST (R85 steps 1 and 2): a blocked WAITMSG, RECV or BAR stops at once and is executed again after the restore. -/
def execPreemptRequest (c : Nat) (s : State) : Out :=
  let k := coreOf s c
  if k.mode ≠ .running then .next s
  else
    let now := match k.blocked with | .recv .. => true | .waitmsg .. => true | .bar .. => true | _ => false
    .next (modCore s c (fun k => if now then { k with mode := .draining, cause := 0, blocked := .none, preemptReq := true } else { k with preemptReq := true }))

/-- PREEMPT_STOP_TIMEOUT (R85 step 2): the core stops at the next instruction boundary. -/
def execPreemptStopTimeout (c : Nat) (s : State) : Out :=
  let k := coreOf s c
  if k.mode ≠ .running || !k.preemptReq then .next s
  else .next (modCore s c (fun k => { k with mode := .draining, cause := 0, blocked := .none }))

/-- MATRIX_QUEUE_DRAINED (R85 steps 3 and 4, R95, R96): the save record is being written and the task is MOVING. Its old router holds what the inbox
had, what was still to be forwarded to it, and what came behind, in order. -/
def execMatrixQueueDrained (c : Nat) (s : State) : Out :=
  let k := coreOf s c
  if k.mode ≠ .draining || !k.queue.isEmpty then .next s
  else
    let mine := (launchOf s k.part k.launch).spill.filter (fun m => m.dst == k.task)
    let s := modCore s c (fun k => { k with mode := .saving, inbox := [], direct := [], awaitFwd := false })
    let s := modLaunch s k.part k.launch (fun x => { x with spill := x.spill.filter (fun m => m.dst != k.task) })
    .next (modTask s k.part k.launch k.task (fun t => { t with state := .moving, held := k.inbox ++ t.held ++ k.direct ++ mine }))

/-- SAVE_RECORD_WRITTEN (R85 steps 4 and 5, R86, R106): the record is written at its place in the context save area, the message unit's work is held
in its parking area, the core is free. -/
def execSaveRecordWritten (c : Nat) (s : State) : Out :=
  let k := coreOf s c
  if k.mode ≠ .saving then .next s
  else
    let e := savedExtent k
    let kept : Core := { k with
      mode := .idle, preemptReq := false
      lmem := k.lmem.filter (fun x => decide (x.1 < e)), lpoison := k.lpoison.filter (fun x => decide (x.1 * 64 < e)) }
    let place := freeSave (partOf s k.part)
    let r : SaveRec := { version := 1, place, launch := k.launch, task := k.task, cause := k.cause, extent := e, oldCore := c, core := kept }
    let s := match place with
      | some pa => putRecord s k.part pa (saveBytes k e) (fun w => decide (recordHead / 64 ≤ w) && tabGet false k.lpoison (w - recordHead / 64))
      | none => s
    let s := modPart s k.part (fun p => { p with saves := p.saves ++ [r] })
    .next (modCore s c freeCore)

/-- A save record as its bytes give it (R87): a record without a place, as the dispatch engine's note has it. -/
def recordCore (s : State) (r : SaveRec) : Core :=
  match r.place with
  | none => r.core
  | some pa =>
    let bs := recordAt s pa (recordSize r.extent)
    { readRecord r.core bs with
      lmem := tabPut [] 0 (bs.drop recordHead)
      lpoison := ((List.range ((r.extent + 63) / 64)).filter (fun w => recordPoison s pa (recordHead / 64 + w))).map (fun w => (w, true)) }
/-- VERSION of a record (R86, R87). -/
def recordVersion (s : State) (r : SaveRec) : Nat :=
  match r.place with
  | none => r.version
  | some pa => (tabGet 0#8 s.mem (redirect s pa)).toNat

/-- The parked responses of a save record applied to local memory (R106), or the address at which one would write into an open node stack (R76). -/
def parkedFault (k : Core) : Option Nat :=
  (k.xfers.find? (fun x => x.parked.isSome && !x.write && nodeProtected k x.lbase x.len)).map (·.lbase)
def applyParked (k : Core) : Core :=
  let done := k.xfers.filter (fun x => x.parked.isSome)
  let k := done.foldl (fun k x => if x.write then k else localWrite k x.lbase (x.parked.getD [])) k
  { k with xfers := k.xfers.filter (fun x => x.parked.isNone) }

/-- A save record written into a core (R86, R87, R106): local memory beyond the saved extent stays as that core holds it; a SEND not yet accepted is
issued again. -/
def restoredCore (new : Core) (r : SaveRec) (k : Core) : Core :=
  let mem := new.lmem.filter (fun x => decide (x.1 ≥ r.extent))
  let pois := new.lpoison.filter (fun x => decide (x.1 * 64 ≥ r.extent))
  { k with
    mode := .running, blocked := .none, preemptReq := false, awaitFwd := true
    lmem := k.lmem ++ mem, lpoison := k.lpoison ++ pois, nextId := Nat.max k.nextId new.nextId
    sends := k.sends.map (fun o => { o with sent := false }) }

/-- RESTORE (R76, R87, R96, R106, R13): the record of a task goes into the first free core; a version other than 1 marks the context lost
(DEDUCED, log 120). -/
def execRestore (n launch task : Nat) (s : State) : Out :=
  match (partOf s n).saves.find? (fun r => r.launch == launch && r.task == task), (idleCores s n).head? with
  | some r, some c =>
    if (partOf s n).ctx.state = .frozen then .next s
    else if recordVersion s r ≠ 1 then .next (loseCtx s n sUnsupported none 0 1 false)
    else if !mapRoom s n then .next s
    else
      let k := restoredCore (coreOf s c) r (recordCore s r)
      let s := modCore s c (fun _ => k)
      let s := modPart s n (fun p => { p with saves := p.saves.filter (fun x => x != r) })
      let s := modTask s n r.launch task (fun t => { t with state := .bound, core := c })
      let s := mapEverywhere s n r.launch task c
      match parkedFault k with
      | some a => .next (coreFaultAt s c 6 (fetched k) k.pc (some a) sContextLost)
      | none => .next (drainFor (modCore s c applyParked) c)
  | _, _ => .next s

/-- FORWARD_COMPLETE (R96): the old router has forwarded everything; what arrived directly comes behind it. -/
def execForwardComplete (c : Nat) (s : State) : Out :=
  let k := coreOf s c
  if k.mode ≠ .running || !k.awaitFwd || (tabGet {} (launchOf s k.part k.launch).tasks k.task).held ≠ [] then .next s
  else
    let s := modCore s c (fun k => { k with inbox := k.inbox ++ k.direct, direct := [], awaitFwd := false })
    .next (placeWaiting (wakeInbox (drainFor s c) c) c)

/-- PROGRAM_IMAGE_RELOAD (R126): the image is reloaded and the core refetches; a reload that fails stops the task. -/
def execProgramImageReload (c : Nat) (ok : Bool) (s : State) : Out :=
  if (coreOf s c).mode ≠ .running || ok then .next s
  else .next (coreMemFault s c 1 (coreOf s c).pc.toNat)

end Sys2Proof.Machine
end

