-- ==== Sys2Proof/Machine/Observe.lean ====
section
/-! DEFINITION. Counter snapshots, trace units and the event controller (R415–R435). -/

namespace Sys2Proof.Machine

-- counters (R418)

/-- VF_CNT_SNAP (R418): all eight counters and the time latched at one instant. -/
def execVfCntSnap (n : Nat) (s : State) : Out :=
  if !(partOf s n).vd.used then .next s
  else .next (modVf s n (fun v => { v with cntSnap := (List.range 8).map (fun i => tabGet 0 (partOf s n).counters i), cntTime := s.pwr.meridian }))

-- trace (R419–R427)

def traceStaging : Nat := 8192

/-- Fields of TRC_CTL and TRC_TRIG (R428). -/
def trcEnable (x : Trace) : Bool := bitOf x.ctl 31
def trcStream (x : Trace) : Bool := bitOf x.ctl 30
def trcPost (x : Trace) : Nat := bits x.ctl 26 24 * 2 ^ x.log2 / 8
def trcSel (x : Trace) : Nat := bits x.trig 30 28

/-- The bytes of a record of unit `t` (R420). -/
def traceBytes (t : Nat) (r : TraceRec) : List Byte :=
  natBytes 8 (2 ^ 60 + r.typ * 2 ^ 52 + t * 2 ^ 49 + b2n r.pvalid * 2 ^ 48 + r.part % 64 * 2 ^ 42 + r.source % 4096 * 2 ^ 30) ++ natBytes 8 r.time ++
  natBytes 8 (r.data.getD 0 0).toNat ++ natBytes 8 (r.data.getD 1 0).toNat

/-- Free places of a unit's ring. -/
def traceRoom (x : Trace) : Nat := 2 ^ x.log2 - (x.pidx + 2 ^ 32 - x.cidx) % 2 ^ 32

/-- Staged records posted to the ring: circularly in WRAP, while there is room in STREAM (R424), with fuel. -/
def traceDrain (t : Nat) : Nat → State → State
  | 0, s => s
  | k + 1, s =>
    let x := traceOf s t
    match x.staged with
    | [] => s
    | r :: rs =>
      if trcStream x && traceRoom x = 0 then s
      else
        let s := hostBulk s (64 + b2n (bitOf x.ctl 29)) (x.ring + 32 * (x.pidx % 2 ^ x.log2)) (traceBytes t r)
        traceDrain t k (modTrace s t (fun y => { y with staged := rs, pidx := (y.pidx + 1) % 2 ^ 32 }))

/-- A record enters staging; in POST it counts against what is left. -/
def traceStage (s : State) (t : Nat) (r : TraceRec) : State :=
  modTrace s t (fun y => { y with staged := y.staged ++ [r], postLeft := if y.state = 2 then y.postLeft - 1 else y.postLeft })

/-- A record dropped (R427); one that arrives after the unit's last leaves no gap. -/
def traceDrop (s : State) (t : Nat) (gap : Bool) : State :=
  modTrace s t (fun y =>
    let y : Trace := { y with dropped := satAdd 0xFFFF y.dropped 1 }
    if gap then { y with gap := y.gap + 1, gapFirst := if y.gap = 0 then s.pwr.meridian else y.gapFirst, gapLast := s.pwr.meridian } else y)

/-- A GAP record before the next record that is written (R427). -/
def traceGap (s : State) (t : Nat) : State :=
  let x := traceOf s t
  if x.gap = 0 then s
  else
    let r : TraceRec := { typ := 0xF0, pvalid := false, part := 0, source := 0, time := x.gapFirst, data := [BitVec.ofNat 64 (x.gap % 2 ^ 32), BitVec.ofNat 64 x.gapLast] }
    modTrace (traceStage s t r) t (fun y => { y with gap := 0 })

/-- A record that may be written now has a place (R426, R427): staging has room, and before an armed trigger in STREAM mode ring and staging
together keep more than POST. -/
def traceFits (x : Trace) : Bool :=
  decide (x.staged.length + b2n (x.gap != 0) < traceStaging) &&
  (!(trcStream x && x.state == 1 && trcSel x != 0) || decide (traceRoom x + (traceStaging - x.staged.length) > trcPost x))

/-- A record written by a running unit, or dropped. -/
def tracePut (s : State) (t : Nat) (r : TraceRec) : State :=
  let x := traceOf s t
  if x.state = 3 || (x.state = 2 && x.postLeft = 0) then traceDrop s t false
  else if !traceFits x then traceDrop s t true
  else
    let s := traceGap s t
    -- a GAP record may be the last of POST
    let s := if (traceOf s t).state = 2 && (traceOf s t).postLeft = 0 then traceDrop s t false else traceStage s t r
    traceDrain t (traceOf s t).staged.length s

/-- A trigger on one running unit (R425): the TRIGGER record, TRIGPOS, POST. -/
def traceFire (cause : Nat) (s : State) (t : Nat) : State :=
  if (traceOf s t).state ≠ 1 then s
  else
    let room := decide ((traceOf s t).staged.length + b2n ((traceOf s t).gap != 0) < traceStaging)
    let s := if room then traceGap s t else traceDrop s t true
    let x := traceOf s t
    let pos := (x.pidx + x.staged.length) % 2 ^ 32
    let r : TraceRec := { typ := 0xF2, pvalid := false, part := 0, source := 0, time := s.pwr.meridian, data := [BitVec.ofNat 64 (cause + pos * 2 ^ 32), 0] }
    let s := modTrace s t (fun y => { y with staged := if room then y.staged ++ [r] else y.staged, trigpos := pos, state := 2, postLeft := trcPost y - 1 })
    traceDrain t (traceOf s t).staged.length s

/-- A trigger with its cross triggers on the other units (R425). -/
def traceFireAll (s : State) (t cause : Nat) : State :=
  if (traceOf s t).state ≠ 1 then s
  else
    let others := (List.range 8).filter (fun u => u != t && trcSel (traceOf s u) == 3)
    others.foldl (traceFire 3) (traceFire cause s t)

/-- A record passes its unit's filters (R423, R428). -/
def traceCaptured (s : State) (t typ part : Nat) (pvalid : Bool) : Bool :=
  let x := traceOf s t
  let always := decide (0xF0 ≤ typ) && decide (typ ≤ 0xF3)
  (always || (decide (typ < 64) && x.types.getLsbD typ && (!pvalid || x.parts.getLsbD part))) &&
  !(pvalid && s.nv.lifecycle == 2 && (partOf s part).vd.secure)

/-- TRACE_RECORD (R421–R427): an event reaches a unit (DESIGN CHOICE, log 138). -/
def execTraceRecord (t : Nat) (typ part : Nat) (pvalid : Bool) (source : Nat) (data : List W64) (s : State) : Out :=
  if t > 7 || (traceOf s t).state = 0 || !traceCaptured s t typ part pvalid then .next s
  else
    let s := tracePut s t { typ, pvalid, part, source, time := s.pwr.meridian, data := data.take 2 }
    let x := traceOf s t
    if trcSel x = 1 && bits x.trig 23 16 = typ then .next (traceFireAll s t 1) else .next s

/-- The newest error record's severity. -/
def newestSeverity (s : State) : Nat := match tabGet none s.err.buf (s.nv.rseq % Config.errBuf) with | some r => r.severity | none => 0

/-- TRACE_TRIGGER (R425): SEL 2 on an error record of the severity or above, 4 on a write of NOW; 1 and 3 where the unit is set so. -/
def execTraceTrigger (t sel : Nat) (s : State) : Out :=
  let x := traceOf s t
  let due := sel = 4 || (trcSel x = sel && (sel = 1 || sel = 3 || (sel = 2 && newestSeverity s ≥ bits x.trig 15 13)))
  if t > 7 || !due then .next s else .next (traceFireAll s t sel)

/-- TRC_CTL_ENABLE (R424, R425, R428): a write of TRC_CTL. ENABLE from 0 to 1 starts the unit when LOG2 is 10 to 24 and clears DROPPED; 0 turns
it off. -/
def execTrcCtlEnable (t : Nat) (v : W32) (s : State) : Out :=
  if t > 7 then .next s
  else
    let x := traceOf s t
    let n := v.toNat
    let keep := bits n 31 29 * 2 ^ 29 + bits n 26 24 * 2 ^ 24
    if !bitOf n 31 then .next (modTrace s t (fun y => { y with ctl := keep, state := 0, staged := [], gap := 0, postLeft := 0 }))
    else if trcEnable x then .next (modTrace s t (fun y => { y with ctl := keep }))
    else if x.log2 < 10 || x.log2 > 24 then .next (modTrace s t (fun y => { y with ctl := keep, dropped := 0 }))
    else .next (modTrace s t (fun y => { y with ctl := keep, state := 1, staged := [], gap := 0, postLeft := 0, dropped := 0 }))

/-- TRACE_POST_END (R425): after POST records the unit stops and raises PF MSI-X entry 2,045. -/
def execTracePostEnd (t : Nat) (s : State) : Out :=
  let x := traceOf s t
  if x.state ≠ 2 || x.postLeft ≠ 0 then .next s
  else .next (raiseMsix (modTrace s t (fun y => { y with state := 3 })) 64 2045)

-- the event controller (R429–R434)

def evcOf (s : State) (t : Nat) : EvcTarget := tabGet {} s.evc t
def modEvc (s : State) (t : Nat) (f : EvcTarget → EvcTarget) : State := { s with evc := tabMod {} s.evc t f }
def evsOf (s : State) (id : Nat) : EvcShared := tabGet {} s.evs id
def modEvs (s : State) (id : Nat) (f : EvcShared → EvcShared) : State := { s with evs := tabMod {} s.evs id f }

/-- A private source is pending (R430). -/
def privPending (x : EvcTarget) (i : Nat) : Bool := bitOf x.en i && !bitOf x.inService i && (bitOf x.level i || bitOf x.soft i)
/-- A shared source is pending (R430). -/
def sharedPending (x : EvcShared) : Bool := x.en && !x.inService && (x.level || x.soft)

/-- Pending sources of a target, with their priorities. -/
def pendingAt (s : State) (t : Nat) : List (Nat × Nat) :=
  let x := evcOf s t
  ((List.range 32).filter (privPending x)).map (fun i => (bits x.prio (2 * i + 1) (2 * i), i)) ++
  (s.evs.filter (fun y => sharedPending y.2 && y.2.target == t)).map (fun y => (y.2.prio, y.1))

/-- The event line of a target (R433): moderated unless MOD_US is 0 or the target's processor waits for events, which no rule lets a command
decide and which is free (log 119). -/
def evcLine (s : State) (t : Nat) : State :=
  let k := (pendingAt s t).length
  modEvc s t (fun x => { x with line := decide (k ≥ 1) && (x.line || x.modUs == 0 || decide (k ≥ x.modCount) || Config.targetIdle t s.pwr.meridian) })
def evcLines (s : State) : State := (List.range 6).foldl evcLine s

/-- The source that a claim returns: lowest priority number, then lowest ID (R430). -/
def claimed (s : State) (t : Nat) : Option Nat :=
  ((pendingAt s t).foldl (fun a x => match a with
    | none => some x
    | some y => if x.1 * 512 + x.2 < y.1 * 512 + y.2 then some x else a) (none : Option (Nat × Nat))).map (·.2)

/-- A Nat with bit `i` set or cleared. -/
def withBit (v i : Nat) (b : Bool) : Nat := if bitOf v i = b then v else if b then v + 2 ^ i else v - 2 ^ i

/-- EVC_CLAIM (R430). -/
def execEvcClaim (target : Nat) (s : State) : Out :=
  if target > 5 then .next s
  else match claimed s target with
    | none => .next (modEvc s target (fun x => { x with claim := 0 }))
    | some id =>
      let s := modEvc s target (fun x => { x with claim := 2 ^ 31 + id })
      let s := if id < 32 then modEvc s target (fun x => { x with inService := withBit x.inService id true, soft := withBit x.soft id false })
        else modEvs s id (fun x => { x with inService := true, soft := false, svcTarget := target })
      .next (evcLine s target)

/-- EVC_EOI (R430, R432): service ends; a level still high makes the source pending again, at the target its route names now. -/
def execEvcEoi (target id : Nat) (s : State) : Out :=
  if target > 5 then .next s
  else if id < 32 then .next (evcLine (modEvc s target (fun x => { x with inService := withBit x.inService id false })) target)
  else if (evsOf s id).inService && (evsOf s id).svcTarget = target then
    .next (evcLines (modEvs s id (fun x => { x with inService := false, svcTarget := 0 })))
  else .next s

/-- EVC_PRIV_SET (R431). -/
def execEvcPrivSet (target : Nat) (bits : W32) (s : State) : Out :=
  if target > 5 then .next s else .next (evcLine (modEvc s target (fun x => { x with soft := x.soft ||| bits.toNat })) target)

/-- EVC_SH_SET (R431, R434): an ID below 32 is ignored. -/
def execEvcShSet (target id : Nat) (s : State) : Out :=
  if target > 5 || id < 32 || id > 287 then .next s else .next (evcLines (modEvs s id (fun x => { x with soft := true })))

/-- Sources whose routes may be secure (R432). -/
def maySecure (id : Nat) : Bool := (decide (58 ≤ id) && decide (id ≤ 69)) || id == 94

/-- EVC_SH_ROUTE_WRITE (R432, R434): by CP0 and SP only; a secure route targets SP and only SP writes it. -/
def execEvcShRouteWrite (target id : Nat) (v : W32) (s : State) : Out :=
  let n := v.toNat
  let sec := bitOf n 30 && maySecure id && target == 5
  let to_ := if sec then 5 else bits n 18 16
  if (target ≠ 0 && target ≠ 5) || id < 32 || id > 287 || ((evsOf s id).secure && target ≠ 5) || (bitOf n 30 && target ≠ 5) || to_ > 5 then .next s
  else .next (evcLines (modEvs s id (fun x => { x with en := bitOf n 31, secure := sec, target := to_, prio := bits n 1 0 })))

/-- EVENT_SOURCE_LEVEL (R430): a source's level as sensed (DEDUCED, log 50). -/
def execEventSourceLevel (target id : Nat) (level : Bool) (s : State) : Out :=
  if id > 287 || (id < 32 && target > 5) then .next s
  else if id < 32 then .next (evcLine (modEvc s target (fun x => { x with level := withBit x.level id level })) target)
  else .next (evcLines (modEvs s id (fun x => { x with level := level })))

/-- MODERATION_TIMEOUT (R433): MOD_US has passed since the first pending source. -/
def execModerationTimeout (target : Nat) (s : State) : Out :=
  if target > 5 || pendingAt s target = [] then .next s else .next (modEvc s target (fun x => { x with line := true }))

end Sys2Proof.Machine
end

