-- ==== Sys2Proof/Machine/Place.lean ====
section
/-! DEFINITION. The buddy allocator of POOL ranges and its request port (R174–R176). -/

namespace Sys2Proof.Machine

-- the allocator (R174–R176)

def alignUp (a order : Nat) : Nat := (a + 2 ^ order - 1) / 2 ^ order * 2 ^ order

/-- The lowest free block of 2^order bytes from `a` on, below `hi`, with fuel. A block aligned to its size that meets no allocated block
is what splitting free blocks yields (R176; which one is returned is not architectural, log 12). -/
def findBlock (blocks : Tab Nat) (hi order : Nat) : Nat → Nat → Option Nat
  | 0, _ => none
  | k + 1, a =>
    if a + 2 ^ order > hi then none
    else match blocks.find? (fun b => decide (a < b.1 + 2 ^ b.2) && decide (b.1 < a + 2 ^ order)) with
      | none => some a
      | some b => findBlock blocks hi order k (alignUp (b.1 + 2 ^ b.2) order)

/-- The POOL range that starts at a 4 KiB page. -/
def poolRange (p : Part) (base : Nat) : Option Range := p.ranges.find? (fun r => r.pool && r.base == base)

def poolBlock (p : Part) (r : Range) (order : Nat) : Option Nat :=
  let b := (tabGet {} p.pools r.base).blocks
  findBlock b ((r.base + r.len) * 4096) order (b.length + 1) (alignUp (r.base * 4096 + 4096) order)

/-- A block for the sequencer, aligned by its offset from the range's start, which numbers a page (R200; DESIGN CHOICE, log 164). -/
def offsetBlock (p : Part) (r : Range) (order : Nat) : Option Nat :=
  let b := (tabGet {} p.pools r.base).blocks.map (fun x => (x.1 - r.base * 4096, x.2))
  (findBlock b (r.len * 4096) order (b.length + 1) (alignUp 4096 order)).map (· + r.base * 4096)

def modPool (s : State) (n base : Nat) (f : Pool → Pool) : State :=
  modPart s n (fun p => { p with pools := tabMod {} p.pools base f })

/-- A reply held for a task (R175). -/
def holdReply (s : State) (n base task : Nat) (q : PortReq) : State :=
  modPool s n base (fun x => { x with replies := x.replies ++ [(task, q)] })

/-- The task has a request or a held reply at the port (R175). -/
def portBusy (p : Part) (base task : Nat) : Bool := (tabGet {} p.pools base).replies.any (fun x => x.1 == task)

/-- ALLOC served (R176): status 3 for an order outside 12–30, status 1 where no block is free, else the block. -/
def poolAlloc (s : State) (n : Nat) (r : Range) (task order : Nat) (zero : Bool) : State :=
  if order < 12 || order > 30 then holdReply s n r.base task ⟨3, order, 0⟩
  else match poolBlock (partOf s n) r order with
    | none => holdReply s n r.base task ⟨1, order, 0⟩
    | some a =>
      let s := modPool s n r.base (fun x => { x with blocks := tabSet 0 x.blocks a order })
      let s := if zero then writeSpan s n a (List.replicate (2 ^ order) 0#8) false else s
      holdReply s n r.base task ⟨0, order, a⟩

/-- FREE served (R176): an address that is not an allocated block's start has status 2 and writes a warning. -/
def poolFree (s : State) (n : Nat) (r : Range) (task addr : Nat) : State :=
  let order := tabGet 0 (tabGet {} (partOf s n).pools r.base).blocks addr
  if order = 0 then
    let s := event s 11 1 2 0 0 0 (some n) none [0, BitVec.ofNat 64 addr, 0]
    holdReply s n r.base task ⟨2, 0, 0⟩
  else
    let s := modPool s n r.base (fun x => { x with blocks := tabSet 0 x.blocks addr 0 })
    holdReply s n r.base task ⟨0, order, 0⟩

/-- A 64-byte request at the port (R175): a PUT of a task that already has one is a FAULT, `none`. -/
def portPut (s : State) (n : Nat) (r : Range) (task : Nat) (bs : List Byte) : Option State :=
  if portBusy (partOf s n) r.base task then none
  else
    let op := (bs.getD 0 0#8).toNat
    let order := (bs.getD 1 0#8).toNat
    if op = 1 then some (poolAlloc s n r task order ((bs.getD 2 0#8).getLsbD 0))
    else if op = 2 then some (poolFree s n r task (bytesNat ((bs.drop 8).take 8)))
    else some (holdReply s n r.base task ⟨3, order, 0⟩)

/-- The bytes of a reply (R175). -/
def replyBytes (q : PortReq) : List Byte :=
  natBytes 1 q.status ++ natBytes 1 q.order ++ List.replicate 6 0#8 ++ natBytes 8 q.addr ++ List.replicate 48 0#8

/-- The held reply collected by the task's GET; `none` is a FAULT (R175). -/
def portGet (s : State) (n : Nat) (r : Range) (task : Nat) : Option (State × List Byte) :=
  match (tabGet {} (partOf s n).pools r.base).replies.find? (fun x => x.1 == task) with
  | none => none
  | some x => some (modPool s n r.base (fun y => { y with replies := y.replies.filter (fun z => z.1 != task) }), replyBytes x.2)

end Sys2Proof.Machine
end

