-- ==== Sys2Proof/Machine/Lines.lean ====
section
/-! DEFINITION. Stack lines under error: correction, uncorrectable reads, repair triggers, the failure of a stack or of the module (R138–R142, R383, R384, R387, R391, R392). -/

namespace Sys2Proof.Machine

/-- DETAIL of a MEMORY record (R374). -/
def memDetail (pa bytes keygen kind backing : Nat) : List W64 :=
  [BitVec.ofNat 64 pa, BitVec.ofNat 64 (bytes + keygen * 2 ^ 8 + kind * 2 ^ 16), BitVec.ofNat 64 backing]

/-- KEYGEN of a line's metadata (R138). -/
def keygenOf (md : BitVec 16) : Nat := bits md.toNat 3 2

-- failed parts (R383, R384)

/-- The partitions that hold an assigned slice satisfying a test. -/
def partsHolding (s : State) (p : Nat → Bool) : List Nat := (livePartsOf s).filter (fun n => !(slicesOf s n p).isEmpty)

/-- The arbiter's next edition after a part failure, where this module is the arbiter (R384); it waits while an edition is in preparation,
which an absent module no longer holds up (R265, R267). -/
def recoveryEdition (s : State) (n : Nat) (ch : MapChange) : State :=
  let vd := (partOf s n).vd
  if !isArbiter vd then s
  else match vd.preparing with
    | none => bumpEdition s n ch
    | some (e, left, c) =>
      let live := (vd.members.filter (·.present)).map (·.modId)
      modVd s n (fun v => { v with preparing := some (e, left.filter (fun m => live.contains m), c), queued := v.queued ++ [ch] })

/-- A list with a number put in its place. -/
def insertInt (x : Int) : List Int → List Int
  | [] => [x]
  | y :: ys => if x ≤ y then x :: y :: ys else y :: insertInt x ys

/-- The median of a list; of an even number of values, any value between the middle two (R297, R405; log 52). -/
def medianInt (l : List Int) : Int :=
  let o := l.foldr insertInt []
  let a := o.getD ((o.length - 1) / 2) 0
  let b := o.getD (o.length / 2) 0
  if a = b then b else a + ((Config.medianPick l % ((b - a).toNat + 1) : Nat) : Int)

/-- The slice that a SELFTEST or a MARGIN names (R233). -/
def testSlice (c : Cmd) : Nat :=
  let w := (c.words.getD 2 0).toNat
  if c.opc = 0x63 then 64 + bits w 8 0
  else match bits w 1 0 with | 0 => bits w 17 8 | 1 => 64 + bits w 17 8 | _ => 448 + bits w 17 8

/-- SELFTEST and MARGIN of slices on a failed part complete with S_ABORTED; the slices stay HELD for another test (R395). -/
def abortTests (s : State) (p : Nat → Bool) : State :=
  let hit (c : Cmd) : Bool := (c.opc == 0x62 || c.opc == 0x63) && c.phase == .started && p (testSlice c)
  modQueue s 64 5 (fun x => { x with cmds := x.cmds.map (fun c => if hit c then { c with phase := .done, status := sAborted, result := 0 } else c) })

/-- A partition of this module holds fewer or more slices than the map says: at a new edition the map says so, asked of the arbiter's module where
that is another (R265, R272, R387). -/
def countsChanged (s : State) (n : Nat) : State :=
  let ch := ownCounts s n
  let vd := (partOf s n).vd
  if isArbiter vd then recoveryEdition (modVd s n (fun v => setCounts v ch)) n ch
  else sendAtlas s (arbiterModule vd) atlChange vd.vdid (natBytes 8 vd.vdid ++ natBytes 8 0 ++ (changeNats ch).flatMap (natBytes 8))

/-- A stack has failed (R383, R387 steps 1 to 3): contexts that hold one of its channels are lost and RECOVERING, its channels are out of
training, its assigned slices leave their partitions with return marks. -/
def stackFails (s : State) (k : Nat) : State :=
  let mine (i : Nat) : Bool := decide (64 + 32 * k ≤ i) && decide (i < 96 + 32 * k)
  let ns := partsHolding s mine
  let s := event s 10 5 1 sContextLost 4 k none none [BitVec.ofNat 64 s.pwr.meridian, 0, 0]
  let s := abortTests (loseByPart s ns 3) mine
  let s := (List.range 32).foldl (fun s i => modChan (dropLines s (chanPa (32 * k + i)) 0x80000000) (32 * k + i) (fun c => { c with trained := false, margining := false })) s
  let s := (List.range 32).foldl (fun s i =>
    if (sliceOf s (64 + 32 * k + i)).state = .assigned then moveSlice s (64 + 32 * k + i) .held (fun x => { x with ret := true }) else s) s
  ns.foldl countsChanged s

/-- The module has failed (R383, R384): every context with a slice here is lost, and the crash dump and the warm reset are due. -/
def moduleFails (s : State) (reason : Nat) : State :=
  let s := event s 10 5 1 sContextLost 10 0 none none [BitVec.ofNat 64 s.pwr.meridian, 0, 0]
  let s := loseByModule (abortTests s (fun _ => true)) (livePartsOf s)
  { s with err := { s.err with failing := some reason } }

-- line errors (R141, R142)

/-- A repair trigger for the row that holds a line (R142; log 14). -/
def repairTrigger (s : State) (pa : Nat) : State :=
  let row := Config.rowOf (pa % 0x80000000 / 128)
  modChan s (pa / 0x80000000) (fun c => { c with triggers := if c.triggers.contains row then c.triggers else c.triggers ++ [row] })

/-- Errors that fall on line `i` of a read, by byte of the stored image: entry 144 × line + byte, with the bits that are wrong
(DEDUCED, log 37). -/
def lineErrs (errs : List (Nat × Byte)) (i : Nat) : List (Nat × Byte) :=
  (errs.filter (fun x => decide (x.1 / 144 = i) && x.2 != 0)).map (fun x => (x.1 % 144, x.2))
def badBytes (es : List (Nat × Byte)) : Nat := ((es.map (·.1)).eraseDups).length

/-- An uncorrectable read noted against its stack (R383): 16 on distinct rows within one second are the failure of the stack. -/
def noteUncor (s : State) (pa : Nat) : State :=
  let g := pa / 0x80000000
  let row := Config.rowOf (pa % 0x80000000 / 128)
  let now := s.pwr.meridian
  let s := modChan s g (fun c => { c with uncor := (c.uncor.filter (fun x => decide (now < x.1 + 10 ^ 9))) ++ [(now, row.1, row.2)] })
  let rows := ((List.range 32).flatMap (fun i => (chanOf s (g / 32 * 32 + i)).uncor.filter (fun x => decide (now < x.1 + 10 ^ 9)) |>.map
    (fun x => (i, x.2)))).eraseDups
  if rows.length ≥ 16 then stackFails s (g / 32) else s

/-- The partitions whose contexts map a physical address. -/
def partsMapping (s : State) (pa : Nat) : List Nat :=
  (livePartsOf s).filter (fun n => (partOf s n).ranges.any (fun r =>
    r.kind == 1 && r.modId == s.glb.moduleId && (vaOfPa r (unredirect s pa)).isSome))

/-- A shared line that stays poisoned: every context that maps it is lost with S_POISONED and is not replayed (R393). -/
def backingFails (s : State) (pa : Nat) : State :=
  let addr := ((rangeAt s pa backed).map (fun x => x.2.1.backAddr)).getD 0
  let s := event s 1 4 0x0A sPoisoned 3 (pa / 0x80000000) (ownerOf s pa) none (memDetail pa 0 (keygenOf (lineMeta s (pa / 128))) 7 addr)
  (partsMapping s pa).foldl (fun s n => loseCtx s n sPoisoned none 0 1 false) s

/-- The outcome of decoding one stack line. -/
inductive LineRead where
  | good | poison
  /-- a line of a shared region with a backing source: the read waits for its repair (R109, R392) -/
  | repair
  deriving DecidableEq, Repr

/-- One stack line read through its codes (R141). A count in err.repairs is one more than the repairs made (R393). `first` are the wrong bytes of the stored
image, `second` those of the second read, which follows an uncorrectable first one and decides; more than six wrong bytes are uncorrectable (DEDUCED, log
37). Firmware's state is what lies in its reservation (DEDUCED, log 140). -/
def eccLine (s : State) (pa : Nat) (first second : List (Nat × Byte)) : State × LineRead :=
  let es := if badBytes first > 6 then second else first
  let pa := pa / 128 * 128
  let md := lineMeta s (pa / 128)
  let g := pa / 0x80000000
  let k := badBytes es
  let n := ownerOf s pa
  if k = 0 then
    (s, if md.getLsbD 0 then (if (rangeAt s pa backed).isSome then .repair else .poison) else .good)
  else if k ≤ 6 then
    let s := modChan s g (fun c => { c with ce := satAdd 0xFFFFFFFF c.ce 1 })
    let s := event s 1 2 3 0 3 g n none (memDetail pa k (keygenOf md) 7 0)
    (if k ≥ 3 then repairTrigger s pa else s, if md.getLsbD 0 then (if (rangeAt s pa backed).isSome then .repair else .poison) else .good)
  else
    let data := (List.range 128).map (fun i => (es.filter (fun x => x.1 == i)).foldl (fun b x => b ^^^ x.2) (tabGet 0#8 s.mem (pa + i)))
    let s := { s with mem := tabPut s.mem pa data, lmeta := tabSet freshMeta s.lmeta (pa / 128) (md ||| 1#16) }
    let s := modChan s g (fun c => { c with ue := satAdd 0xFFFF c.ue 1 })
    let s := repairTrigger s pa
    match rangeAt s pa backed with
    | some _ =>
      -- still uncorrectable after two repairs (R393)
      if tabGet 0 s.err.repairs pa ≥ 3 then (noteUncor (backingFails { s with err := { s.err with repairs := tabSet 0 s.err.repairs pa 0 } } pa) pa, .poison)
      else ({ s with err := { s.err with repairs := tabSet 0 s.err.repairs pa (Nat.max 1 (tabGet 0 s.err.repairs pa)) } }, .repair)
    | none =>
      let s := noteUncor (event s 1 3 4 0 3 g n none (memDetail pa k (keygenOf md) 7 0)) pa
      -- firmware's own state: a failure of the module (R383)
      if pa % 0x80000000 ≥ reservationAt && s.err.failing.isNone then (moduleFails s 1, .poison)
      else (if (rangeAt s pa (·.shared)).isSome then backingFails s pa else s, .poison)

end Sys2Proof.Machine
end

