-- ==== Sys2Proof/Machine/Links.lean ====
section
/-! DEFINITION. Pergil links: guarantees scaled with capacity, training, frames, retry, credits, urgency, keys and lanes (R274, R293–R307, R315–R317). -/

namespace Sys2Proof.Machine

-- guarantees (R273, R274), in units of 0.125 GB/s

/-- Bandwidth that guarantees may take of a channel whose derated capacity is `c` tenths of GB/s, and of a link with `w` data lanes:
85 % less the firmware reserve (R273, R274). -/
def chanShare (c : Nat) : Nat := (68 * c - 3120) / 100
def linkShare (w : Nat) : Nat := (187 * w - 176) / 2

/-- Scale of guarantees `g` within a share `a`, in 1/128 (R274). -/
def scaleOf (a g : Nat) : Nat := if g ≤ a then 128 else 128 * a / g

/-- Data lanes in use of a link that carries traffic. -/
def linkUp (l : Link) : Bool := l.state = 2 || l.state = 3
def linkWidth (l : Link) : Nat := if linkUp l then l.width else 0

/-- The scales of a partition's guarantees under the capacities now (R274, R292). -/
def memScaleOf (s : State) (n : Nat) : Nat :=
  (memSlices s n).foldl (fun a g => Nat.min a (scaleOf (chanShare (chanOf s g).capacity) (partOf s n).vd.memGuar.sum)) 128
def linkScaleOf (s : State) (n : Nat) : Nat :=
  (assignedOf s n isLink).foldl (fun a k => Nat.min a (scaleOf (linkShare (linkWidth (linkOf s (k - 448)))) (partOf s n).vd.linkGuar)) 128

/-- One partition's scales recomputed; a new scaling is an event (R274). -/
def rescalePart (s : State) (n : Nat) : State :=
  let m := memScaleOf s n
  let l := linkScaleOf s n
  let vd := (partOf s n).vd
  let worse := m < vd.memScale || l < vd.linkScale
  let s := modVd s n (fun v => { v with memScale := m, linkScale := l, scaled := decide (m < 128) || decide (l < 128) })
  if !worse then s
  else
    let s := { s with atl := { s.atl with event := s.atl.event ||| 2 } }
    event s 5 1 6 0 10 0 (some n) none [0, BitVec.ofNat 64 vd.edition, 0]

/-- Every partition's scales recomputed. -/
def rescale (s : State) : State := (livePartsOf s).foldl rescalePart s

-- packets as bytes (R308)

/-- Virtual channel of a packet kind (R308). -/
def kindVc (kind : Nat) : Nat := if kind ≤ 3 then 1 else if kind = 4 then 2 else if kind = 5 || kind = 6 then 3 else 0

/-- The RESPONSE that returns a BULK read's data goes on VC3 (R308); the model marks it by OPERAND bit 8 (DESIGN CHOICE, log 33). -/
def packetVc (p : Packet) : Nat := if p.kind = 4 && bitOf p.operand.toNat 8 then 3 else kindVc p.kind

/-- A packet's header and payload as the fabric carries them. -/
def packetBytes (p : Packet) : List Byte :=
  let units := (p.payload.length + 15) / 16
  natBytes 8 (p.pver % 16 + p.kind % 32 * 2 ^ 4 + units % 512 * 2 ^ 9 + b2n p.maddr * 2 ^ 18 + p.ret % 8 * 2 ^ 19 + p.dst % 2 ^ 20 * 2 ^ 24 + p.src % 2 ^ 20 * 2 ^ 44) ++
  natBytes 8 (p.vdid % 2 ^ 24 + p.ttl % 2 ^ 8 * 2 ^ 24 + p.edition % 2 ^ 32 * 2 ^ 32) ++
  natBytes 8 (p.dtask % 2 ^ 32 + p.cseq % 2 ^ 16 * 2 ^ 32) ++ natBytes 8 p.operand.toNat ++
  p.payload ++ List.replicate (16 * units - p.payload.length) 0#8

/-- The routing-table links toward a module (R310): none where no entry is valid. The module's own entry is local delivery, an empty mask. -/
def routeMask (s : State) (dst : Nat) : Option Nat :=
  let e := if dst / 512 = s.glb.moduleId / 512 then tabGet 0 s.fab.rtMember (dst % 512) else tabGet 0 s.fab.rtGroup (dst / 512)
  if s.glb.idValid && e.getLsbD 31 then some (e.toNat % 2 ^ 24) else none

/-- A link is in self-test: traffic has left it (R394). -/
def linkInTest (s : State) (k : Nat) : Bool := (sliceOf s (448 + k)).state == .held && (sliceOf s (448 + k)).testing

/-- A packet may go out over link `k` (R296, R310): the entry lists it, it carries traffic, and a packet of a virtual device only takes P3. -/
def mayLeave (s : State) (k : Nat) (p : Packet) : Bool :=
  let l := linkOf s k
  linkUp l && !linkInTest s k && (p.maddr || l.rev = 3 || p.pver ≠ 3) && (match routeMask s p.dst with | some m => bitOf m k | none => false)

-- a link's state changes (R311, R317)

/-- A packet back among those to be sent. -/
def requeue (s : State) (ps : List Packet) : State := { s with fab := { s.fab with out := ps ++ s.fab.out } }

/-- A link enters a state with a reason, its other registers keeping their values (R320); LNK_EVENT and a record follow. A link that no longer carries traffic gives its packets to other
links (R317) and forgets what its training will set afresh. -/
def setLink (s : State) (k st reason : Nat) : State :=
  let l := linkOf s k
  let back := if linkUp l && !(st = 2 || st = 3) then l.flying.map (·.2) ++ l.egress.flatMap (·.2) else []
  let s := modLink s k (fun l =>
    let l : Link := { l with state := st, reason := reason }
    if st = 2 || st = 3 then l
    else { l with keyed := false, oldKey := false, egress := [], cut := [], flying := [], replay := [], resend := [], lanes := [], nakFrom := none, nak := false })
  let s := requeue s back
  if l.state = st then s
  else
    let s := { s with fab := { s.fab with event := s.fab.event ||| 1 } }
    let s := event s 5 (if st = 2 then 0 else 1) 1 0 6 k none none [BitVec.ofNat 64 (k + (if l.peerIdValid then l.peerId else 0) * 2 ^ 32), 0, 0]
    rescale s

-- training (R297, R304)

/-- The median of the round trips of step 7 (R297). -/
def medianOf (l : List Nat) : Nat := (medianInt (l.map Int.ofNat)).toNat

/-- Good physical lanes at a revision (R293, R295): P1 has no spare lane. -/
def goodLanes (rev bad : Nat) : List Nat := (List.range (if rev = 1 then 16 else 17)).filter (fun i => !bitOf bad i)
def badCount (rev bad : Nat) : Nat := (if rev = 1 then 16 else 17) - (goodLanes rev bad).length

/-- The reason for which a training is refused, 0 for none (R294, R295, R297, R304, R306, R316, R320) (DEDUCED, log 101) (DEDUCED, log 134). -/
def trainReason (s : State) (bad : Nat) (t : TrainResult) : Nat :=
  let rev := Nat.min 3 t.peerRev
  if !s.sec.linksPermitted then 10
  else if t.reason = 1 then 1
  else if rev = 0 then 2
  else if badCount rev bad > 8 then 9
  else if t.peerOpen && s.nv.lifecycle = 2 && !s.fab.allowOpen then 4
  else if !t.identityOk then 3
  else if t.reason = 0 && medianOf t.rtts > 2000 then 6
  else t.reason

/-- A link trained: fresh keys, full credits, empty buffers (R297 steps 5 to 8, R302, R304). -/
def trainedLink (l : Link) (rev bad : Nat) (t : TrainResult) : Link :=
  let good := goodLanes rev bad
  let wide := decide (16 ≤ good.length)
  { l with
    state := if wide then 2 else 3
    rev, width := if wide then 16 else 8, reason := 0, bad, retrain := false
    spareOk := decide (good.length = 17)
    laneMap := good.take (if wide then 16 else 8)
    spareLane := good.getD 16 17
    peerValid := true, peerLink := t.peerLink, peerIdValid := t.peerId.isSome, peerId := t.peerId.getD 0
    rtt := medianOf t.rtts
    occ := [], rxbuf := [], rxOff := [], giveBack := []
    credits := [(0, 16), (1, 384), (2, 384), (3, 768)]
    lastRx := 0, nextTx := 1, replay := [], resend := [], nak := false, nakAt := none, nakFrom := none, failRun := 0
    txFrames := 0, rxFrames := 0, txEpoch := 0, rxEpoch := 0, rxSince := 0, oldKey := false, keyed := true, tagTimes := []
    urg := false, since3 := 0 }

/-- LINK_TRAIN (R294–R297, R304, R316): a training runs to UP, DEGRADED or REFUSED. Lanes marked bad before stay marked (DESIGN CHOICE,
log 53). -/
def execLinkTrain (k : Nat) (t : TrainResult) (s : State) : Out :=
  let l := linkOf s k
  if l.state ≠ 1 || k > 23 then .next s
  else
    let bad := l.bad ||| t.badLanes.toNat
    let rev := Nat.min 3 t.peerRev
    match trainReason s bad t with
    | 0 =>
      let s := setLink s k (if 16 ≤ (goodLanes rev bad).length then 2 else 3) 0
      .next (rescale (modLink s k (fun l => trainedLink l rev bad t)))
    | r =>
      let s := modLink s k (fun l => { l with retrain := false, bad := bad })
      .next (setLink s k (if r = 9 then 0 else 4) r)

/-- RETRAIN (R297, R320): LNK_CTL.RETRAIN starts training; a disabled link stays disabled. -/
def execRetrain (k : Nat) (s : State) : Out :=
  if k > 23 || (linkOf s k).disable then .next s
  else
    let s := modLink s k (fun l => { l with retrain := true })
    .next (setLink s k 1 (linkOf s k).reason)

/-- A link that retrains of its own accord. -/
def selfRetrain (s : State) (k reason : Nat) : State := if (linkOf s k).disable then s else setLink s k 1 reason

-- credits and urgency (R302, R303)

def vcBuffer (vc : Nat) : Nat := if vc = 0 then 16 else if vc = 3 then 768 else 384
def occBulk (l : Link) : Nat := tabGet 0 l.occ 1 + tabGet 0 l.occ 2 + tabGet 0 l.occ 3
/-- The urgency wire follows the occupancy of VC1 to VC3. -/
def urgency (l : Link) : Link := { l with urg := if occBulk l > 1152 then true else if occBulk l < 960 then false else l.urg }

/-- `b` bytes taken from the front of a receive buffer: flits taken whole become free and give credits back. -/
def takeBytes (l : Link) (vc b : Nat) : Link :=
  let off := tabGet 0 l.rxOff vc + b
  let free := off / 240
  urgency { l with
    rxbuf := tabSet [] l.rxbuf vc ((tabGet [] l.rxbuf vc).drop b)
    rxOff := tabSet 0 l.rxOff vc (off % 240)
    occ := tabSet 0 l.occ vc (tabGet 0 l.occ vc - free)
    giveBack := tabSet 0 l.giveBack vc (tabGet 0 l.giveBack vc + free) }

/-- Empty slots at the front of a receive buffer are skipped: where a header is due, a slot whose PVER is zero starts no packet (DEDUCED,
log 55); with fuel. -/
def skipEmpty (vc : Nat) : Nat → Link → Link
  | 0, l => l
  | k + 1, l => match tabGet [] l.rxbuf vc with
    | [] => l
    | b :: _ => if b.toNat % 16 = 0 then skipEmpty vc k (takeBytes l vc 16) else l

/-- A received packet leaves its link's buffer, where it is the next of its channel there. -/
def takePacket (l : Link) (p : Packet) : Link :=
  let vc := packetVc p
  let bs := packetBytes p
  if (tabGet [] l.rxbuf vc).take bs.length = bs then
    let l := takeBytes l vc bs.length
    skipEmpty vc ((tabGet [] l.rxbuf vc).length / 16 + 1) l
  else l

-- sending (R298, R299, R301, R302, R305, R306, R108)

/-- The link slices of the partition in which a packet's traffic starts that could take it now (R20). Control traffic goes over any link. -/
def ownLinks (s : State) (vc : Nat) (p : Packet) : List Nat :=
  match (if p.maddr || vc = 0 || p.src ≠ s.glb.moduleId then none else partOfVdid s p.vdid) with
  | none => []
  | some n => ((assignedOf s n isLink).map (· - 448)).filter (fun j => mayLeave s j p && decide (tabGet 0 (linkOf s j).credits vc > 0))

/-- Packets of a channel that may leave over link `k`, among those to be sent: a partition's own traffic only where none of its own link slices can take
it (R20). -/
def readyFor (s : State) (k vc : Nat) : List Packet :=
  s.fab.out.filter (fun p => packetVc p == vc && mayLeave s k p && (ownLinks s vc p == [] || (ownLinks s vc p).contains k))

/-- A channel has something to send and a credit for it. -/
def vcReady (s : State) (k vc : Nat) : Bool :=
  let l := linkOf s k
  decide (tabGet 0 l.credits vc > 0) && (!(tabGet [] l.egress vc).isEmpty || !(readyFor s k vc).isEmpty)

/-- The channel that the next frame carries (R108): VC0 first; VC3 at least once in eight slots; then VC2, VC1, VC3. -/
def pickVc (s : State) (k : Nat) : Option Nat :=
  let r := vcReady s k
  if r 0 then some 0
  else if r 3 && (linkOf s k).since3 ≥ 7 then some 3
  else if r 2 then some 2
  else if r 1 then some 1
  else if r 3 then some 3
  else none

/-- Packets enough for one flit are taken for the link, with fuel. -/
def fillEgress (k vc : Nat) : Nat → State → State
  | 0, s => s
  | f + 1, s =>
    let l := linkOf s k
    let have_ := ((tabGet [] l.egress vc).map (fun p => (packetBytes p).length)).sum - tabGet 0 l.cut vc
    if have_ ≥ 240 then s
    else match readyFor s k vc with
      | [] => s
      | p :: _ =>
        let s := { s with fab := { s.fab with out := s.fab.out.erase p } }
        fillEgress k vc f (modLink s k (fun l => { l with egress := tabMod [] l.egress vc (· ++ [p]) }))

/-- The bytes of queued packets from offset `cut` that fill `room` bytes: the bytes, the packets left with the new offset, and the packets
that end among them. -/
def packFlit : List Packet → Nat → Nat → List Byte × List Packet × Nat × List Packet
  | [], _, _ => ([], [], 0, [])
  | p :: ps, cut, room =>
    let bs := (packetBytes p).drop cut
    if bs.length ≤ room then
      let r := packFlit ps 0 (room - bs.length)
      (bs ++ r.1, r.2.1, r.2.2.1, p :: r.2.2.2)
    else (bs.take room, p :: ps, cut + room, [])

/-- FIRSTHDR of a flit whose first packet has `rest` bytes left when `cut` of it are already sent (R299). -/
def firstHeader (cut rest total : Nat) : Nat :=
  let at_ := if cut = 0 then 0 else rest / 16
  if at_ < 15 && at_ * 16 < total then at_ else 15

/-- The link word's acknowledgement, NAK and credits as they stand at a frame slot; up to 63 credits of each channel go back (DEDUCED, log 135). -/
def wordNow (l : Link) (f : Flit) : Flit :=
  { f with keysel := l.txEpoch % 2 == 1, ack := l.lastRx, nak := l.nak, cr := (List.range 4).map (fun v => Nat.min 63 (tabGet 0 l.giveBack v)) }
def afterWord (l : Link) (f : Flit) : Link :=
  { l with
    nak := false, txFrames := l.txFrames + 1, wire := l.wire ++ [f]
    giveBack := (List.range 4).foldl (fun t v => tabSet 0 t v (tabGet 0 t v - f.cr.getD v 0)) l.giveBack }

/-- A flit with an LSEQ goes out and into the replay buffer. -/
def sendFlit (l : Link) (f : Flit) : Link :=
  let f := wordNow l { f with lseq := l.nextTx }
  let l := afterWord l f
  { l with replay := l.replay ++ [f], nextTx := (l.nextTx + 1) % 4096 }

def idleFlit : Flit := { ft := 0, vc := 0, keysel := false, firstHdr := 15, lseq := 0, ack := 0, nak := false, cr := [], payload := List.replicate 240 0#8 }

/-- One DATA flit of a channel. -/
def sendData (s : State) (k vc : Nat) : State :=
  let s := fillEgress k vc 16 s
  modLink s k (fun l =>
    let ps := tabGet [] l.egress vc
    let cut := tabGet 0 l.cut vc
    let r := packFlit ps cut 240
    let rest := ((ps.headD { pver := 0, kind := 0, maddr := false, ret := 0, dst := 0, src := 0, vdid := 0, ttl := 0, edition := 0, dtask := 0, cseq := 0, operand := 0, payload := [] }) |> packetBytes).length - cut
    let f : Flit := { idleFlit with ft := 1, vc, firstHdr := firstHeader cut rest r.1.length, payload := r.1 ++ List.replicate (240 - r.1.length) 0#8 }
    let seq := l.nextTx
    let l := sendFlit l f
    { l with
      egress := tabSet [] l.egress vc r.2.1, cut := tabSet 0 l.cut vc r.2.2.1
      flying := l.flying ++ r.2.2.2.map (fun p => (seq, p))
      credits := tabSet 0 l.credits vc (tabGet 0 l.credits vc - 1)
      since3 := if vc = 3 then 0 else l.since3 + 1 })

/-- FRAME_SEND (R298–R302, R305, R306): one frame slot. Flits to be replayed go first, then LANE flits, then the channel that arbitration picks
while the replay buffer has room; otherwise IDLE. A due key epoch must roll first. -/
def execFrameSend (k : Nat) (s : State) : Out :=
  let l := linkOf s k
  if k > 23 || !linkUp l || !l.keyed || l.txFrames / 2 ^ 31 ≠ l.txEpoch then .next s
  else match l.resend, l.lanes with
    | f :: fs, _ =>
      let f := wordNow l f
      .next (modLink s k (fun l => { afterWord l f with resend := fs }))
    | [], b :: bs =>
      if l.replay.length ≥ 512 then .next (modLink s k (fun l => afterWord l (wordNow l idleFlit)))
      else .next (modLink s k (fun l => { sendFlit l { idleFlit with ft := 2, payload := b ++ List.replicate (240 - b.length) 0#8 } with lanes := bs }))
    | [], [] =>
      match (if l.replay.length ≥ 512 then none else pickVc s k) with
      | some vc => .next (sendData s k vc)
      | none => .next (modLink s k (fun l => afterWord l (wordNow l idleFlit)))

/-- KEY_EPOCH_ROLL (R306): every 2^31 frames the sender takes the next key and toggles KEYSEL. -/
def execKeyEpochRoll (k : Nat) (s : State) : Out :=
  let l := linkOf s k
  if l.txFrames / 2 ^ 31 > l.txEpoch && linkUp l then .next (modLink s k (fun l => { l with txEpoch := l.txEpoch + 1 })) else .next s

/-- OLD_KEY_ERASE (R306): 4,096 frames after the first frame of a new epoch. -/
def execOldKeyErase (k : Nat) (s : State) : Out :=
  let l := linkOf s k
  if l.oldKey && l.rxSince ≥ 4096 then .next (modLink s k (fun l => { l with oldKey := false })) else .next s

/-- LSEQ `a` is after `b` and not ahead of what a 512-flit window allows, modulo 4,096 (R301). -/
def seqAfter (a b : Nat) : Bool := decide ((a + 4096 - b) % 4096 ≥ 1) && decide ((a + 4096 - b) % 4096 ≤ 2048)

/-- NAK_REPLAY (R301): every flit after ACK is sent again. -/
def execNakReplay (k ack : Nat) (s : State) : Out :=
  let l := linkOf s k
  if l.nakFrom ≠ some ack || !linkUp l then .next s
  else .next (modLink s k (fun l => { l with
    nakFrom := none, resend := l.replay.filter (fun f => seqAfter f.lseq ack), replays := satAdd 0xFFFFFFFF l.replays 1 }))

-- receiving (R300, R301, R305–R307)

/-- A discarded frame: NAK at most once in 64 ns; a LSEQ that fails eight times in a row retrains the link. -/
def discardFrame (s : State) (k : Nat) (awaited : Bool) : State :=
  let now := s.pwr.meridian
  let s := modLink s k (fun l =>
    let again := match l.nakAt with | some t => decide (t + 64 ≤ now) | none => true
    { l with nak := l.nak || again, nakAt := if again then some now else l.nakAt, failRun := if awaited then l.failRun + 1 else l.failRun })
  if (linkOf s k).failRun ≥ 8 then selfRetrain (modLink s k (fun l => { l with failRun := 0 })) k 7 else s

/-- A tag failure (R307, R368): counted, an alarm; four within 1 ms refuse the link, which retrains at once unless it was refused so within the
last second (R297). -/
def tagFailure (s : State) (k : Nat) (awaited : Bool) : State :=
  let now := s.pwr.meridian
  let s := modLink s k (fun l => { l with
    tagfail := satAdd 0xFFFF l.tagfail 1, tagTimes := (l.tagTimes.filter (fun t => decide (now < t + 1000000))) ++ [now] })
  let s := { s with fab := { s.fab with event := s.fab.event ||| 8 } }
  let s := raiseAlarm s 1
  if (linkOf s k).tagTimes.length ≥ 4 then
    let again := match (linkOf s k).lastR8 with | some t => decide (now < t + 1000000000) | none => false
    let s := modLink (setLink s k 4 8) k (fun l => { l with lastR8 := some now, tagTimes := [] })
    if again then s else selfRetrain s k 8
  else discardFrame s k awaited

/-- The key that KEYSEL selects (R306): the current epoch, the previous one while its key is held, or the next. -/
inductive KeyUse where
  | current | previous | next
  deriving DecidableEq, Repr
def keyUse (l : Link) (keysel : Bool) : KeyUse :=
  if keysel == (l.rxEpoch % 2 == 1) then .current else if l.oldKey then .previous else .next

/-- Acknowledgement, NAK and credits of an authentic frame. -/
def takeWord (l : Link) (f : Flit) : Link :=
  { l with
    replay := l.replay.filter (fun x => seqAfter x.lseq f.ack)
    resend := l.resend.filter (fun x => seqAfter x.lseq f.ack)
    flying := l.flying.filter (fun x => seqAfter x.1 f.ack)
    nakFrom := if f.nak then some f.ack else l.nakFrom
    credits := (List.range 4).foldl (fun t v => tabSet 0 t v (tabGet 0 t v + f.cr.getD v 0)) l.credits }

/-- The flit's packet space enters the receive buffer of its channel; a sender without a credit would not have sent it. -/
def takeFlit (l : Link) (f : Flit) : Link :=
  let l : Link := { l with lastRx := f.lseq, failRun := 0 }
  if f.ft ≠ 1 || f.vc > 3 || tabGet 0 l.occ f.vc ≥ vcBuffer f.vc then l
  else
    let l := urgency { l with rxbuf := tabMod [] l.rxbuf f.vc (· ++ f.payload), occ := tabMod 0 l.occ f.vc (· + 1) }
    if (tabGet [] l.rxbuf f.vc).length = f.payload.length then skipEmpty f.vc 16 l else l

/-- FRAME_RECEIVE (R300, R301, R305–R307): a frame with the byte positions that arrived wrong, and whether its tag verifies under the key that
KEYSEL selects. -/
def execFrameReceive (k : Nat) (fl : Flit) (badBytes : List Nat) (tagOk : Bool) (s : State) : Out :=
  let l := linkOf s k
  if k > 23 || !linkUp l || !l.keyed then .next s
  else
    let awaited := fl.ft ≠ 0 && fl.lseq = (l.lastRx + 1) % 4096
    let s := modLink s k (fun l => { l with rxFrames := l.rxFrames + 1, rxSince := if l.oldKey then l.rxSince + 1 else l.rxSince })
    if !fecCorrects badBytes then
      .next (discardFrame (modLink s k (fun l => { l with uncorr := satAdd 0xFFFF l.uncorr 1 })) k awaited)
    else
      let s := if badBytes = [] then s else modLink s k (fun l => { l with corr := satAdd 0xFFFFFFFF l.corr 1 })
      if !tagOk then .next (tagFailure s k awaited)
      else
        let s := if keyUse l fl.keysel = .next then modLink s k (fun l => { l with rxEpoch := l.rxEpoch + 1, oldKey := true, rxSince := 0 }) else s
        let s := modLink s k (fun l => takeWord l fl)
        if fl.ft = 0 then .next s
        else if awaited && fl.ft ≤ 2 then .next (modLink s k (fun l => takeFlit l fl))
        else .next (discardFrame s k false)

-- lanes (R315, R316)

/-- A LANE flit that names the logical lane and the physical lane that takes it over (the layout of its packet space is not given; log 33). -/
def laneFlit (logical physical : Nat) : List Byte := natBytes 1 logical ++ natBytes 1 physical

/-- The spare lane takes over logical lane `j` at a frame boundary. -/
def swapLane (l : Link) (j : Nat) : Link :=
  { l with
    laneMap := l.laneMap.set j l.spareLane, spareLane := l.laneMap.getD j 17
    swaps := satAdd 0xFFFFFFFF l.swaps 1, lanes := l.lanes ++ [laneFlit j l.spareLane] }

/-- LANE_RECALIBRATE (R315): the next data lane in rotation is taken over by the spare and becomes the spare. -/
def execLaneRecalibrate (k : Nat) (s : State) : Out :=
  let l := linkOf s k
  if k > 23 || l.state ≠ 2 || !l.spareOk then .next s
  else .next (modLink s k (fun l => { swapLane l l.recal with recal := (l.recal + 1) % 16 }))

/-- LANE_FAIL (R295, R316, R319): the spare replaces a bad lane once; a second bad lane retrains at 8 lanes; more than eight leave the link
DOWN. -/
def execLaneFail (k lane : Nat) (s : State) : Out :=
  let l := linkOf s k
  if k > 23 || lane > 16 || !linkUp l || bitOf l.bad lane then .next s
  else
    let bad := l.bad + 2 ^ lane
    if badCount l.rev bad > 8 then
      .next (setLink (modLink s k (fun l => { l with bad := bad, spareOk := false })) k 0 9)
    else if l.spareOk then
      let s := modLink s k (fun l => match l.laneMap.idxOf? lane with
        | some j => { swapLane l j with bad := bad, spareOk := false }
        | none => { l with bad := bad, spareOk := false })
      .next s
    else .next (selfRetrain (modLink s k (fun l => { l with bad := bad })) k 0)

end Sys2Proof.Machine
end

