-- ==== Sys2Proof/Machine/Vector.lean ====
section
/-! DEFINITION. Vector instructions of the core: element-wise operations, reductions across lanes, comparisons, moves (R57, R63, R70, R71). -/

namespace Sys2Proof.Machine

/-- The format of an element type, FP32 where the code names none (such a word is illegal before this is read). -/
def tyFmt (ty : BitVec 3) : Nat := (laneFmt ty.toNat).getD 0
def tyLegal (ty : BitVec 3) : Bool := (laneFmt ty.toNat).isSome

/-- An element-wise operation (R63, R70): each active lane receives `f fmt old a b`, inactive lanes stay, flags are sticky. The rb field of an
operation with one operand is not reserved (DESIGN CHOICE, log 148). -/
def vop (c op : Nat) (vd va vb : BitVec 5) (ty pred : BitVec 3) (kind : Nat → Bool) (f : Nat → Nat → Nat → Nat → Nat × Flg)
    (s : State) : State :=
  issue s c (vword 24 op vd va vb ty pred) (tyLegal ty && kind (tyFmt ty)) (fun k =>
    let fm := tyFmt ty
    let w := fmtBits fm
    let p := pRead k pred.toNat
    let old := lanes (vRead k vd.toNat) w
    let rs := (List.range old.length).zip (old.zip ((lanes (vRead k va.toNat) w).zip (lanes (vRead k vb.toNat) w)))
    let out := rs.map (fun x => if active p x.1 then f fm x.2.1 x.2.2.1 x.2.2.2 else (x.2.1, {}))
    .ok (nextPc (raiseFlags (vWrite k vd.toNat (ofLanes w (out.map (·.1)))) (flagsOf out))))

/-- |a| and −a of a float code; a NaN gives the canonical NaN (R38). -/
def fabsc (f a : Nat) : Nat × Flg :=
  match decodeFloat f a with
  | .nan => fround f (.nan, false)
  | _ => (a % 2 ^ (fmtBits f - 1), {})
def fnegc (f a : Nat) : Nat × Flg :=
  match decodeFloat f a with
  | .nan => fround f (.nan, false)
  | v => fround f (valNeg v, false)

/-- An integer lane result: exact when it lies inside the lane, otherwise a free value (DESIGN CHOICE, log 19); every overflow sets OF (R48). -/
def intLane (op f z a b : Nat) (r : Int) : Nat × Flg :=
  let w := fmtBits f
  if -(2 ^ (w - 1) : Nat) ≤ r && r < (2 ^ (w - 1) : Nat) then (wrapNat w r, {})
  else (Config.laneOver op f z a b % 2 ^ w, { ovf := true })

/-- VSHL: zeros fill; an amount of the lane width or more gives 0 (R71). -/
def shlLane (w a b : Nat) : Nat := if b ≥ w then 0 else (a * 2 ^ b) % 2 ^ w
/-- VSHR: copies of the sign fill; an amount of the lane width or more gives 0 or −1 (R71). -/
def shrLane (w a b : Nat) : Nat := wrapNat w (signed w a >>> (if b ≥ w then w else b))

/-- All element types, the floating-point types, the integer types (R70). -/
def anyTy (_ : Nat) : Bool := true
def floatTy (f : Nat) : Bool := fmtFloat f
def intTy (f : Nat) : Bool := fmtInt f

/-- An arithmetic lane on both kinds of type: `fl` on floats, `it` exact on integers. -/
def arithLane (op : Nat) (fl : Nat → Nat → Nat → Nat → Nat × Flg) (it : Int → Int → Int → Int) (f d a b : Nat) : Nat × Flg :=
  if fmtFloat f then fl f d a b
  else
    let w := fmtBits f
    intLane op f d a b (it (signed w d) (signed w a) (signed w b))

/-- VADD (R57, R70). -/
def execVadd (c : Nat) (vd va vb : BitVec 5) (ty pred : BitVec 3) (s : State) : Out :=
  .next (vop c 0 vd va vb ty pred anyTy (arithLane 0 (fun f _ a b => fadd f a b) (fun _ x y => x + y)) s)
/-- VSUB (R57, R70). -/
def execVsub (c : Nat) (vd va vb : BitVec 5) (ty pred : BitVec 3) (s : State) : Out :=
  .next (vop c 1 vd va vb ty pred anyTy (arithLane 1 (fun f _ a b => fsub f a b) (fun _ x y => x - y)) s)
/-- VMUL (R57, R70). -/
def execVmul (c : Nat) (vd va vb : BitVec 5) (ty pred : BitVec 3) (s : State) : Out :=
  .next (vop c 2 vd va vb ty pred anyTy (arithLane 2 (fun f _ a b => fmul f a b) (fun _ x y => x * y)) s)
/-- VFMA (R57, R70). -/
def execVfma (c : Nat) (vd va vb : BitVec 5) (ty pred : BitVec 3) (s : State) : Out :=
  .next (vop c 3 vd va vb ty pred anyTy (arithLane 3 (fun f d a b => ffma f d a b) (fun z x y => z + x * y)) s)
/-- VMAX (R71, R70). -/
def execVmax (c : Nat) (vd va vb : BitVec 5) (ty pred : BitVec 3) (s : State) : Out :=
  .next (vop c 4 vd va vb ty pred anyTy (arithLane 4 (fun f _ a b => (fmaxc f a b, {})) (fun _ x y => if x < y then y else x)) s)
/-- VMIN (R71, R70). -/
def execVmin (c : Nat) (vd va vb : BitVec 5) (ty pred : BitVec 3) (s : State) : Out :=
  .next (vop c 5 vd va vb ty pred anyTy (arithLane 5 (fun f _ a b => (fminc f a b, {})) (fun _ x y => if y < x then y else x)) s)
/-- VABS (R70, R70). -/
def execVabs (c : Nat) (vd va vb : BitVec 5) (ty pred : BitVec 3) (s : State) : Out :=
  .next (vop c 6 vd va vb ty pred anyTy (arithLane 6 (fun f _ a _ => fabsc f a) (fun _ x _ => (x.natAbs : Int))) s)
/-- VNEG (R70, R70). -/
def execVneg (c : Nat) (vd va vb : BitVec 5) (ty pred : BitVec 3) (s : State) : Out :=
  .next (vop c 7 vd va vb ty pred anyTy (arithLane 7 (fun f _ a _ => fnegc f a) (fun _ x _ => -x)) s)
/-- VEXP: floating-point types only (R57, R70). -/
def execVexp (c : Nat) (vd va vb : BitVec 5) (ty pred : BitVec 3) (s : State) : Out :=
  .next (vop c 8 vd va vb ty pred floatTy (fun f _ a _ => fexp f a) s)
/-- VRCP: floating-point types only (R57, R70). -/
def execVrcp (c : Nat) (vd va vb : BitVec 5) (ty pred : BitVec 3) (s : State) : Out :=
  .next (vop c 9 vd va vb ty pred floatTy (fun f _ a _ => frcp f a) s)
/-- VSQRT: floating-point types only (R71, R70). -/
def execVsqrt (c : Nat) (vd va vb : BitVec 5) (ty pred : BitVec 3) (s : State) : Out :=
  .next (vop c 10 vd va vb ty pred floatTy (fun f _ a _ => fsqrt f a) s)
/-- VAND: integer types only (R70, R71). -/
def execVand (c : Nat) (vd va vb : BitVec 5) (ty pred : BitVec 3) (s : State) : Out :=
  .next (vop c 11 vd va vb ty pred intTy (fun _ _ a b => (a &&& b, {})) s)
/-- VOR: integer types only (R70, R71). -/
def execVor (c : Nat) (vd va vb : BitVec 5) (ty pred : BitVec 3) (s : State) : Out :=
  .next (vop c 12 vd va vb ty pred intTy (fun _ _ a b => (a ||| b, {})) s)
/-- VXOR: integer types only (R70, R71). -/
def execVxor (c : Nat) (vd va vb : BitVec 5) (ty pred : BitVec 3) (s : State) : Out :=
  .next (vop c 13 vd va vb ty pred intTy (fun _ _ a b => (a ^^^ b, {})) s)
/-- VSHL: integer types only (R70, R71). -/
def execVshl (c : Nat) (vd va vb : BitVec 5) (ty pred : BitVec 3) (s : State) : Out :=
  .next (vop c 14 vd va vb ty pred intTy (fun f _ a b => (shlLane (fmtBits f) a b, {})) s)
/-- VSHR: integer types only (R70, R71). -/
def execVshr (c : Nat) (vd va vb : BitVec 5) (ty pred : BitVec 3) (s : State) : Out :=
  .next (vop c 15 vd va vb ty pred intTy (fun f _ a b => (shrLane (fmtBits f) a b, {})) s)

/-- The codes of the active lanes of a register. -/
def activeLanes (p : W64) (v : VReg) (w : Nat) : List Nat :=
  ((List.range (laneCount w)).filter (active p)).map (lane v w)

/-- A reduction across lanes (R57, R70, R71): the result goes to lane 0 and all other lanes are zeroed. vb is not used. -/
def vred (c op : Nat) (vd va vb : BitVec 5) (ty pred : BitVec 3) (f : Nat → List Nat → Nat × Flg) (s : State) : State :=
  issue s c (vword 26 op vd va vb ty pred) (tyLegal ty) (fun k =>
    let fm := tyFmt ty
    let w := fmtBits fm
    let r := f fm (activeLanes (pRead k pred.toNat) (vRead k va.toNat) w)
    .ok (nextPc (raiseFlags (vWrite k vd.toNat (ofLanes w [r.1])) r.2)))

/-- A chunk value narrowed once to a type, a zero written +0 (R56, R57; DEDUCED, log 24). -/
def narrowSum (f : Nat) (r : Nat × Flg) : Nat × Flg :=
  if f = fFP32 then r
  else
    let q := toFloat f false true (decodeFloat fFP32 r.1)
    (if q.1 % 2 ^ (fmtBits f - 1) = 0 then 0 else q.1, flgOr r.2 { q.2 with unf := false })

/-- The sum of active lanes: one chunk on floats, wrapping on integers; inactive lanes contribute zero (R57, R71). -/
def sumLanes (f : Nat) (xs : List Nat) : Nat × Flg :=
  if fmtFloat f then narrowSum f (chunkSum (xs.map (fun x => termOf (decodeFloat f x))))
  else (wrapNat (fmtBits f) (xs.foldl (fun a x => a + signed (fmtBits f) x) 0), {})

/-- The maximum or minimum of active lanes (R71); with none active the value is free (DESIGN CHOICE, log 22). -/
def extremeLanes (op : Nat) (fl : Nat → Nat → Nat → Nat) (it : Nat → Nat → Nat → Nat) (f : Nat) (xs : List Nat) : Nat × Flg :=
  match xs with
  | [] => (Config.emptyReduce op f % 2 ^ fmtBits f, {})
  | x :: t => (t.foldl (fun a y => if fmtFloat f then fl f a y else it (fmtBits f) a y) (if fmtFloat f then fl f x x else x), {})

def imax (w a b : Nat) : Nat := if signed w a < signed w b then b else a
def imin (w a b : Nat) : Nat := if signed w b < signed w a then b else a

/-- VSUM (R57, R71). -/
def execVsum (c : Nat) (vd va vb : BitVec 5) (ty pred : BitVec 3) (s : State) : Out := .next (vred c 0 vd va vb ty pred sumLanes s)
/-- VRMAX (R71). -/
def execVrmax (c : Nat) (vd va vb : BitVec 5) (ty pred : BitVec 3) (s : State) : Out :=
  .next (vred c 1 vd va vb ty pred (extremeLanes 1 fmaxc imax) s)
/-- VRMIN (R71). -/
def execVrmin (c : Nat) (vd va vb : BitVec 5) (ty pred : BitVec 3) (s : State) : Out :=
  .next (vred c 2 vd va vb ty pred (extremeLanes 2 fminc imin) s)

/-- A comparison (R63, R70): result bits for active lanes, every other bit of the destination predicate cleared. The destination is
in [23:21] of the word and [25:24] must be zero. -/
def vcmp (c op : Nat) (pd va vb : BitVec 5) (ty pred : BitVec 3) (fl : Val → Val → Bool) (it : Int → Int → Bool) (s : State) : State :=
  issue s c (vword 27 op pd va vb ty pred) (tyLegal ty && decide (pd.toNat < 8)) (fun k =>
    let fm := tyFmt ty
    let w := fmtBits fm
    let p := pRead k pred.toNat
    let t (i : Nat) : Bool :=
      let a := lane (vRead k va.toNat) w i
      let b := lane (vRead k vb.toNat) w i
      active p i && (if fmtFloat fm then fl (decodeFloat fm a) (decodeFloat fm b) else it (signed w a) (signed w b))
    .ok (nextPc (pWrite k pd.toNat (BitVec.ofNat 64 (maskOf ((List.range (laneCount w)).filter t))))))

/-- Equality of values that are not NaN, −0 equal to +0 (DEDUCED, log 25). -/
def valEq (a b : Val) : Bool := a != .nan && b != .nan && !valLt a b && !valLt b a

/-- VCMP EQ (R63, R70). -/
def execVcmpEq (c : Nat) (pd va vb : BitVec 5) (ty pred : BitVec 3) (s : State) : Out :=
  .next (vcmp c 0 pd va vb ty pred valEq (fun a b => decide (a = b)) s)
/-- VCMP NE (R63, R70). -/
def execVcmpNe (c : Nat) (pd va vb : BitVec 5) (ty pred : BitVec 3) (s : State) : Out :=
  .next (vcmp c 1 pd va vb ty pred (fun a b => !valEq a b) (fun a b => decide (a ≠ b)) s)
/-- VCMP LT (R63, R70). -/
def execVcmpLt (c : Nat) (pd va vb : BitVec 5) (ty pred : BitVec 3) (s : State) : Out :=
  .next (vcmp c 2 pd va vb ty pred valLt (fun a b => decide (a < b)) s)
/-- VCMP LE (R63, R70). -/
def execVcmpLe (c : Nat) (pd va vb : BitVec 5) (ty pred : BitVec 3) (s : State) : Out :=
  .next (vcmp c 3 pd va vb ty pred (fun a b => valLt a b || valEq a b) (fun a b => decide (a ≤ b)) s)

/-- VBCAST (R70): the low bits of ra to every active lane. rb is not used. -/
def execVbcast (c : Nat) (vd ra rb : BitVec 5) (ty pred : BitVec 3) (s : State) : Out :=
  .next (issue s c (vword 28 0 vd ra rb ty pred) (tyLegal ty) (fun k =>
    let w := fmtBits (tyFmt ty)
    let new := List.replicate (laneCount w) ((sRead k ra.toNat).toNat % 2 ^ w)
    .ok (nextPc (vWrite k vd.toNat (ofLanes w (mergeLanes (pRead k pred.toNat) (lanes (vRead k vd.toNat) w) new))))))

/-- Lane `i` of a register, free beyond the lane count (DESIGN CHOICE, log 20). -/
def laneAt (f : Nat) (v : VReg) (i : Nat) : Nat :=
  if i < laneCount (fmtBits f) then lane v (fmtBits f) i else Config.laneOutside f i % 2 ^ fmtBits f

/-- VMOVS (R70): rd ← lane rb of va. The bits of rd above the lane are free (DESIGN CHOICE, log 21). It writes no vector lane, so its
pred field must be zero (DEDUCED, log 26). -/
def execVmovs (c : Nat) (rd va rb : BitVec 5) (ty pred : BitVec 3) (s : State) : Out :=
  .next (issue s c (vword 28 1 rd va rb ty pred) (tyLegal ty && pred == 0) (fun k =>
    let f := tyFmt ty
    let x := laneAt f (vRead k va.toNat) (sRead k rb.toNat).toNat
    .ok (nextPc (sWrite k rd.toNat (BitVec.ofNat 64 (x + 2 ^ fmtBits f * Config.moveHigh f x))))))

/-- VSEL (R70): pred selects va, else vb. -/
def execVsel (c : Nat) (vd va vb : BitVec 5) (ty pred : BitVec 3) (s : State) : Out :=
  .next (issue s c (vword 28 2 vd va vb ty pred) (tyLegal ty) (fun k =>
    let w := fmtBits (tyFmt ty)
    .ok (nextPc (vWrite k vd.toNat (ofLanes w (mergeLanes (pRead k pred.toNat) (lanes (vRead k vb.toNat) w) (lanes (vRead k va.toNat) w)))))))

/-- VPERM (R70): lane i ← lane vb[i] of va. -/
def execVperm (c : Nat) (vd va vb : BitVec 5) (ty pred : BitVec 3) (s : State) : Out :=
  .next (issue s c (vword 28 3 vd va vb ty pred) (tyLegal ty) (fun k =>
    let f := tyFmt ty
    let w := fmtBits f
    let new := (lanes (vRead k vb.toNat) w).map (laneAt f (vRead k va.toNat))
    .ok (nextPc (vWrite k vd.toNat (ofLanes w (mergeLanes (pRead k pred.toNat) (lanes (vRead k vd.toNat) w) new))))))

/-- Element formats of the block formats (R40). -/
def fmtBlock (f : Nat) : Bool := decide (3 ≤ f ∧ f ≤ 8) || f = 10

/-- Which VCVT words are legal (R72, R88). -/
def vcvtLegal (dst src : Nat) (sat blk : Bool) (rsv : Nat) (pred : Nat) : Bool :=
  rsv = 0 && dst ≤ 12 && src ≤ 12 && (fmtReg dst || fmtReg src) && (sat || dst = fE4M3 || dst = fE5M2) &&
  (if blk then pred = 0 && ((dst = fFP32 && fmtBlock src) || (src = fFP32 && fmtBlock dst))
   else dst ≠ fLG4 && src ≠ fLG4)

/-- Elements that a VCVT without BLK converts: the lanes of its widest register type (R72; DEDUCED, log 27). -/
def vcvtCount (dst src : Nat) : Nat :=
  let n f := if fmtReg f then laneCount (fmtBits f) else 64
  Nat.min (n dst) (n src)

/-- VCVT of separate elements (R46, R47, R72): element k is governed by predicate bit k (R63). -/
def vcvtPlain (k : Core) (vd va dst src : Nat) (rtz sat : Bool) (p : W64) : Core :=
  let n := vcvtCount dst src
  let v := vRead k va
  let old := vRead k vd
  let dw := fmtBits dst
  let res := (List.range n).map (fun i => toElem dst rtz sat (decodeElem src (lane v (fmtBits src) i)))
  let new := mergeLanes p ((List.range n).map (lane old dw)) (res.map (·.1))
  let tail := if fmtReg dst then (List.range (laneCount dw - n)).map (fun i =>
      if active p (n + i) then Config.cvtTail dst src v.toNat (n + i) % 2 ^ dw else lane old dw (n + i)) else []
  raiseFlags (vWrite k vd (ofLanes dw (new ++ tail))) (flagsOf (((List.range n).zip res).map (fun x => if active p x.1 then x.2 else (0, {}))))

/-- VCVT with BLK (R49, R50, R72): the packed side holds 32 codes from byte 0 and the E8M0 scale in byte 127. -/
def vcvtBlock (k : Core) (vd va dst src : Nat) (rtz : Bool) : Core :=
  let bs := natBytes 128 (vRead k va).toNat
  if src = fFP32 then
    let (x, cs, g) := toBlock dst rtz ((lanes (vRead k va) 32).map (decodeFloat fFP32))
    let body := packCodes (fmtBits dst) cs
    let out := body ++ List.replicate (127 - body.length) 0#8 ++ [BitVec.ofNat 8 x]
    raiseFlags (vWrite k vd (BitVec.ofNat 1024 (bytesNat out))) g
  else
    let x := (bs.getD 127 0#8).toNat
    let res := (unpackCodes (fmtBits src) 32 bs).map (fun c => toFloat fFP32 rtz true (scaledElem src c x))
    raiseFlags (vWrite k vd (ofLanes 32 (res.map (·.1)))) (flagsOf res)

/-- VCVT (R72). -/
def execVcvt (c : Nat) (vd va : BitVec 5) (dst src : BitVec 4) (rnd sat blk : Bool) (rsv : BitVec 2) (pred : BitVec 3) (s : State) : Out :=
  .next (issue s c (wordVcvt vd va dst src rnd sat blk rsv pred) (vcvtLegal dst.toNat src.toNat sat blk rsv.toNat pred.toNat) (fun k =>
    .ok (nextPc (if blk then vcvtBlock k vd.toNat va.toNat dst.toNat src.toNat rnd
      else vcvtPlain k vd.toNat va.toNat dst.toNat src.toNat rnd sat (pRead k pred.toNat)))))

end Sys2Proof.Machine
end

