-- ==== Sys2Proof/Machine/Packet.lean ====
section
/-! DEFINITION. Packets of the queues: the opcode table, the checks at fetch in their order, completion records and what the destruction of a queue or the end of a context does (R220–R233, R238, R246–R249, R456). -/

namespace Sys2Proof.Machine

/-- A row of R233: opcode, queue (6 for any), issuer (0 both, 1 VF, 2 PF, 3 PF with CTX 0), V2, units (0 for 1–64), and the bits that
may be set in each 64-bit parameter word from byte 16 on. -/
structure OpRow where
  opc : Nat
  queue : Nat
  issuer : Nat
  v2 : Bool
  units : Nat
  masks : List Nat

/-- Bits [hi:lo] as a mask. -/
def field (hi lo : Nat) : Nat := (2 ^ (hi + 1 - lo) - 1) * 2 ^ lo
def addr52 : Nat := field 51 0
def word64 : Nat := field 63 0

/-- The bits of a stream slot that a STREAM_OPEN may set, by word from slot byte 0 (R189, R233): the fields the SS owns must be zero. -/
def slotMasks : List Nat :=
  [field 63 60 + field 47 39 + field 19 0, field 63 58, field 63 48, field 31 0, 0, 0, word64,
   field 63 16, word64, word64, addr52, word64, 0, 0]

def opRows1 : List OpRow :=
  [⟨0x00, 6, 0, true, 0, []⟩,
   ⟨0x02, 6, 0, true, 2, [field 47 0, field 11 0]⟩,
   ⟨0x03, 6, 0, true, 2, [field 47 0 + 2 ^ 63, field 11 0]⟩,
   ⟨0x04, 0, 2, true, 2, [field 12 0, field 63 3]⟩,
   ⟨0x08, 0, 2, true, 6, [word64, word64, word64, word64, word64, word64, word64, word64, field 6 0, 0]⟩,
   ⟨0x09, 0, 2, true, 2, [field 51 12, 1]⟩,
   ⟨0x0B, 0, 2, false, 2, [field 8 0 + 2 ^ 16, 0]⟩,
   ⟨0x10, 0, 2, true, 3, [addr52, field 31 0, addr52, 0]⟩,
   ⟨0x11, 0, 0, true, 3, [field 15 0, addr52, field 15 0, 0]⟩,
   ⟨0x12, 0, 2, true, 2, [field 15 0, 0]⟩,
   ⟨0x20, 1, 2, false, 3, [field 5 0 + field 12 8, addr52, addr52, addr52]⟩,
   ⟨0x21, 1, 2, false, 2, [field 5 0, 0]⟩,
   ⟨0x22, 1, 1, false, 9, slotMasks ++ [field 19 0, 0]⟩,
   ⟨0x23, 1, 1, false, 3, [field 19 0, addr52, word64, word64]⟩]

def opRows2 : List OpRow :=
  [⟨0x24, 1, 1, false, 2, [field 19 0, 0]⟩,
   ⟨0x25, 1, 1, false, 2, [field 19 0, 0]⟩,
   ⟨0x26, 1, 1, false, 2, [field 19 0, 0]⟩,
   ⟨0x27, 1, 1, false, 2, [field 19 0, 0]⟩,
   ⟨0x30, 2, 1, true, 4, [addr52, field 13 0 + field 28 16 + field 63 32, field 16 0 + field 44 32, addr52, field 18 0 + field 48 32, 0]⟩,
   ⟨0x31, 2, 1, true, 3, [field 15 0, addr52, field 12 0, 0]⟩,
   ⟨0x40, 3, 1, true, 3, [addr52, addr52, field 39 0, 0]⟩,
   ⟨0x41, 3, 1, true, 3, [addr52, word64, field 39 0, 0]⟩,
   ⟨0x42, 3, 1, false, 3, [addr52, addr52, field 31 0, field 10 0]⟩,
   ⟨0x50, 4, 2, true, 4, [field 5 0 + field 18 8 + field 27 20, field 18 0 + field 63 32, addr52, addr52, field 18 0 + field 47 32, 0]⟩,
   ⟨0x51, 4, 1, true, 2, [field 11 0 + field 63 32, 0]⟩,
   ⟨0x52, 4, 2, true, 2, [field 11 0, 0]⟩,
   ⟨0x60, 5, 1, false, 2, [field 51 16, 0]⟩,
   ⟨0x61, 5, 2, false, 2, [field 51 12, field 3 0 + field 24 16]⟩,
   ⟨0x62, 5, 3, false, 2, [field 1 0 + field 17 8, 0]⟩,
   ⟨0x63, 5, 3, false, 2, [field 8 0, 0]⟩]

/-- The opcode table of R233. -/
def opRow (opc : Nat) : Option OpRow := (opRows1 ++ opRows2).find? (fun r => r.opc == opc)

-- header fields (R228)

def pktOpc (w : List W64) : Nat := bits (w.headD 0).toNat 7 0
def pktVer (w : List W64) : Nat := bits (w.headD 0).toNat 11 8
def pktLen (w : List W64) : Nat := bits (w.headD 0).toNat 17 12
def pktFlags (w : List W64) : Nat := bits (w.headD 0).toNat 31 18
def pktCtx (w : List W64) : Nat := bits (w.headD 0).toNat 47 32
def pktFwait (w : List W64) : Nat := bits (w.headD 0).toNat 59 48
def pktSeq (w : List W64) : Nat := bits (w.getD 1 0).toNat 31 0
def pktFsig (w : List W64) : Nat := bits (w.getD 1 0).toNat 43 32
def pktFence (w : List W64) : Bool := bitOf (pktFlags w) 0 || bitOf (pktFlags w) 1

/-- Parameter word `i` counted from byte 16. -/
def pktParam (w : List W64) (i : Nat) : Nat := (w.getD (2 + i) 0).toNat

/-- Only the bits of a mask are set. -/
def within (mask v : Nat) : Bool := v &&& mask == v

/-- Reserved bits of the header, the parameters and the fence block are zero (R228, R230). `units` is LEN + 1. -/
def reservedOk (ver : Nat) (row : OpRow) (w : List W64) : Bool :=
  let units := pktLen w + 1
  let fl := pktFlags w
  let fence := pktFence w
  let params := if fence then units - 2 else units - 1
  let blk := 2 * (units - 1)
  decide (bits (w.headD 0).toNat 63 60 = 0) && decide (bits (w.getD 1 0).toNat 63 44 = 0) && decide (fl < 64) &&
  (ver != 2 || within 0xC fl) &&
  (bitOf fl 0 || pktFwait w == 0) && (bitOf fl 1 || pktFsig w == 0) &&
  (!bitOf fl 5 || row.opc == 0x22 || row.opc == 0x23) &&
  (List.range (2 * params)).all (fun i => within (row.masks.getD i 0) (pktParam w i)) &&
  (!fence || (decide ((w.getD blk 0).toNat < 2 ^ 48) && decide ((w.getD (blk + 1) 0).toNat < 2 ^ 48)))

-- registrations of collectives (R56, R111, R116, R235)

def sumFmt (f : Nat) : Bool := f = fFP32 || f = fBF16 || f = fFP16 || f = fE4M3 || f = fE5M2
def wideFmt (f : Nat) : Bool := f = fFP32 || f = fBF16 || f = fFP16

/-- Formats of MAX and MIN: those of the sums, or INT32 on both sides (R56, R111; DEDUCED, log 41). -/
def extremeFmts (src dst : Nat) : Bool := (src = fINT32 && dst = fINT32) || (sumFmt src && wideFmt dst)

/-- The registration that parameter words ask for, by packet byte, without its tables (R235). -/
def collOfWords (w : Nat → Nat) : Coll :=
  { registered := true, op := bits (w 16) 2 0, operator := bits (w 16) 5 3, src := bits (w 16) 11 8, dst := bits (w 16) 15 12, task := bitOf (w 16) 16
    level := bits (w 16) 27 20, n := bits (w 24) 18 0, count := bits (w 24) 63 32, root := bits (w 48) 18 0, chunks := bits (w 48) 47 32 }

/-- A registration is well formed (R56, R111, R116, R235); `engine` is its ENGINE field. -/
def collOk (co : Coll) (chunks sizesAddr engine : Nat) : Bool :=
  let reduces := co.op = 0 || co.op = 1
  let whole (k : Nat) : Bool := if fmtBits co.src = 6 then k % 4 = 0 else fmtBits co.src * k % 8 = 0
  decide (co.op ≤ 4) && decide (co.src ≤ 12) && decide (co.dst ≤ 12) && decide (1 ≤ co.n) && decide (co.n ≤ 262144) && decide (engine ≤ 2) &&
  decide (co.operator ≤ 3) && (reduces || (co.operator == 0 && co.src == co.dst)) &&
  (!reduces || (if co.operator ≤ 1 then sumFmt co.src && wideFmt co.dst else extremeFmts co.src co.dst)) &&
  (if reduces && co.operator == 1 then
    decide (1 ≤ chunks) && decide (chunks ≤ 32768) && decide ((co.n - 1) * 2 ^ co.level < chunks) && decide (chunks ≤ co.n * 2 ^ co.level)
   else chunks == 0) &&
  (co.op == 4 || sizesAddr == 0) && (co.op != 3 || decide (co.root < co.n)) && (co.op != 2 || whole co.count)

/-- The fields of a CONVERT, from its parameter words by packet byte (R72, R456). -/
def convertLegal (w : Nat → Nat) : Bool :=
  vcvtLegal (bits (w 40) 7 4) (bits (w 40) 3 0) (bitOf (w 40) 9) (bitOf (w 40) 10) 0 0

/-- Fields of the opcode's parameters are in range (R210, R229, R233–R235, R456). -/
def fieldsOk (w : List W64) : Bool :=
  let p := pktParam w
  let byte (o : Nat) : Nat := p ((o - 16) / 8)
  match pktOpc w with
  | 0x04 => decide (1 ≤ p 0) && decide (p 0 ≤ 4096) && !pktFence w
  | 0x08 => decide (bits (p 8) 6 2 ≤ 16)
  | 0x20 => decide (8 ≤ bits (p 0) 12 8) && decide (bits (p 0) 12 8 ≤ 20) && decide (p 1 % 4096 = 0)
  | 0x30 =>
    let g := (bits (p 1) 47 32 + 1) * (bits (p 1) 63 48 + 1) * (bits (p 2) 15 0 + 1)
    decide (p 0 % 4 = 0) && decide (1 ≤ bits (p 1) 13 0) && decide (bits (p 1) 13 0 ≤ 8192) && decide (g ≤ 2 ^ 31) &&
    decide (bits (p 2) 44 32 ≤ 4096) && decide (bits (p 2) 44 32 % 8 = 0) && decide (bits (p 4) 48 32 ≤ 65536)
  | 0x31 => decide (p 2 ≤ 4096) && decide (p 2 % 8 = 0)
  | 0x41 => decide (p 2 % 8 = 0)
  | 0x42 => convertLegal byte
  | 0x50 => let co := collOfWords byte; collOk co co.chunks (byte 40) (bits (byte 16) 18 17)
  | 0x61 => decide (bits (p 1) 24 16 < 384)
  | 0x62 => match bits (p 0) 1 0 with | 0 => decide (bits (p 0) 17 8 < 64) | 1 => decide (bits (p 0) 17 8 < 384) | 2 => decide (bits (p 0) 17 8 < 24) | _ => false
  | 0x63 => decide (bits (p 0) 8 0 < 384)
  | _ => true

/-- Fence indices of the packet lie below the fence count of the table its queue uses (R229, R236). -/
def fenceIndexOk (f : Fences) (w : List W64) : Bool :=
  let cnt := if f.exist then f.count else 0
  (!bitOf (pktFlags w) 0 || decide (pktFwait w < cnt)) && (!bitOf (pktFlags w) 1 || decide (pktFsig w < cnt)) &&
  (!(pktOpc w == 2 || pktOpc w == 3) || decide (bits (pktParam w 1) 11 0 < cnt))

/-- The partition of a live context tag (R229). -/
def partOfTag (s : State) (tag : Nat) : Option Nat :=
  (tabKeys (fun n p => decide (n < 64) && p.vd.used && p.ctx.tag == tag && p.ctx.state != .none) s.parts).head?

/-- The status with which a packet fails the checks of R229 before the one of its fence indices, in the order of the table; `none` when it passes them
(DEDUCED, log 98) (DEDUCED, log 127). -/
def contentCheck (s : State) (f q : Nat) (w : List W64) : Option Nat :=
  let x := queueOf s f q
  if pktVer w ≠ x.pktver then some sUnsupported
  else if f < 64 && pktCtx w ≠ (partOf s f).ctx.tag then some sBadPacket
  else if f = 64 && pktCtx w ≠ 0 && (partOfTag s (pktCtx w)).isNone then some sBadPacket
  else match opRow (pktOpc w) with
    | none => some sBadPacket
    | some row =>
      if row.queue ≠ 6 && row.queue ≠ q then some sBadPacket
      else if x.pktver = 2 && !row.v2 then some sBadPacket
      else if f < 64 && row.issuer ≥ 2 then some sBadPacket
      else if f = 64 && row.issuer = 1 then some sBadPacket
      else if f = 64 && row.issuer = 3 && pktCtx w ≠ 0 then some sBadPacket
      else if f = 64 && pktCtx w = 0 && row.issuer ≠ 3 && !(row.queue == 6 || row.opc == 4) then some sBadPacket
      else if row.units ≠ 0 && pktLen w + 1 ≠ row.units + b2n (pktFence w) then some sBadPacket
      else if row.units = 0 && pktFence w && pktLen w = 0 then some sBadPacket
      else if !reservedOk x.pktver row w || !fieldsOk w then some sBadPacket
      else none

/-- The status with which a packet fails the checks of R229; `none` when it passes. -/
def packetCheck (s : State) (f q : Nat) (w : List W64) : Option Nat :=
  match contentCheck s f q w with
  | some st => some st
  | none => if fenceIndexOk (partOf s f).fences w then none else some sBadPacket

-- completion records (R223, R231)

/-- Free places of a completion ring. -/
def cqRoom (x : Queue) : Bool := decide ((x.written + 2 ^ 32 - x.cqHead) % 2 ^ 32 < 2 ^ x.cqLog2)

/-- The bytes of a completion record. -/
def recordOf (s : State) (x : Queue) (q : Nat) (c : Cmd) (ferr : Bool) : List Byte :=
  let phase := (x.written / 2 ^ x.cqLog2) % 2 = 0
  natBytes 4 c.pseq ++ natBytes 1 c.status ++ natBytes 1 c.opc ++ natBytes 1 (b2n phase + q * 2 + b2n ferr * 16) ++ natBytes 1 x.pktver ++
  natBytes 4 x.fetched ++ natBytes 2 c.ctx ++ natBytes 2 c.detail ++ natBytes 8 c.result ++
  natBytes 8 (if x.pktver = 2 then 0 else s.pwr.meridian)

/-- The signal of a command's FSIG field (R238): the state after it, and FERR. -/
def headerSignal (s : State) (f : Nat) (c : Cmd) : State × Bool :=
  if !cmdSignal c then (s, false)
  else if goodStatus c.status then fenceSignalValue s f c.fsig c.sigVal
  else (fenceError s f c.fsig, true)

/-- What a SIGNAL packet does to the fence it names (R233, R238): a value signalled, or ERROR set, on which FERR says only that the fence had it; a
packet that is rejected leaves the fence, one that ends otherwise sets ERROR on it (DEDUCED, log 128). -/
def packetSignal (s : State) (f : Nat) (c : Cmd) : State × Bool :=
  let i := cmdWord c 24
  let v := cmdWord c 16
  if c.opc ≠ 3 || c.status = sBadPacket || c.status = sUnsupported then (s, false)
  else if !goodStatus c.status then (fenceError s f i, true)
  else if bitOf v 63 then (fenceError s f i, (fenceNewest s f i).getLsbD 63)
  else fenceSignalValue s f i (bits v 47 0)

/-- The signals of a complete command (R238): the state after them, and FERR. -/
def signalOf (s : State) (f : Nat) (c : Cmd) : State × Bool :=
  let r := headerSignal s f c
  let q := packetSignal r.1 f c
  (q.1, r.2 || q.2)

/-- The record of a complete command written, its interrupt raised, and its signal applied (R223, R231, R238). -/
def writeCompletion (s : State) (f q : Nat) (c : Cmd) : State :=
  let x := queueOf s f q
  let lost := match targetPart s f c with | some n => (partOf s n).ctx.state == .lost || (partOf s n).ctx.state == .recovering | none => false
  let after := signalOf s f c
  let s := modQueue s f q (fun y => { y with cmds := y.cmds.filter (fun d => d.seq != c.seq) })
  if cmdNocomp c && c.status = sOk then (signalOf s f c).1
  else
    let s := match targetPart s f c with | some n => progress s n | none => s
    let s := hostControl s f (x.cqBase + 32 * (x.written % 2 ^ x.cqLog2)) (recordOf s x q c after.2)
    let s := modQueue s f q (fun y => { y with written := (y.written + 1) % 2 ^ 32 })
    let s := if cmdIrq c || !goodStatus c.status || lost then raiseMsix s f x.vector else s
    (signalOf s f c).1

-- destroying queues and contexts (R246, R249)

/-- The engine of this module that fetches a queue (R218), by the numbers of a queue's `unacked`. -/
def ownEngine (s : State) (f q : Nat) : Nat :=
  let d := ((computeSlices s f).headD 0) / 16
  match q with | 0 => 16 + d | 1 => 14 | 2 => d | 3 => 4 + 2 * d | 4 => 12 | _ => 15

/-- Engines that hold commands of a queue, here and on other modules, by the numbers of a queue's `unacked` (R114, R218, R246). -/
def enginesOf (s : State) (f q : Nat) : List Nat :=
  let x := queueOf s f q
  let held := x.cmds.filter (fun c => c.phase != .done)
  if held = [] then []
  else
    let xe1 (c : Cmd) : Bool := match targetPart s f c with | some n => c.opc != 0x50 && (collOf s n (bits (cmdWord c 16) 11 0)).engine == 1 | none => false
    let away : List Nat :=
      if q = 2 then (tabKeys (fun _ l => l.live && l.seq.isSome) (partOf s f).launches).flatMap (fun l => (launchOf s f l).left)
      else if q = 1 then held.filterMap (fun c => c.sentTo) else []
    ownEngine s f q :: (if q = 4 && held.any (fun c => c.opc > 4 && xe1 c) then [13] else []) ++ away.eraseDups.map (64 + ·)

/-- A handle and its reservations given up on every module (R114). -/
def dropHandle (s : State) (n h : Nat) : State :=
  (otherMembers s n).foldl (fun s m => sendControl s n m 0 ctlHandleGone h []) (modColl s n h (fun _ => {}))

/-- Work of a stopped command that its engine abandons (R247): kernels' tasks stop and their cores are free, collective invocations end
with destinations undefined. -/
def stopWork (s : State) (f q : Nat) (c : Cmd) : State :=
  if q = 2 then
    let s := freeCopy false f s c
    let ls := tabKeys (fun _ l => l.live && l.seq == some c.seq) (partOf s f).launches
    let s := { s with cores := tabMapV (fun _ k => if k.mode != .idle && k.part == f && ls.contains k.launch then freeCore k else k) s.cores }
    modPart s f (fun p => { p with
      launches := p.launches.filter (fun x => !ls.contains x.1)
      saves := p.saves.filter (fun r => !ls.contains r.launch)
      carve := { p.carve with extra := p.carve.extra - ((p.launches.filter (fun x => ls.contains x.1)).map (fun x => spillPages x.2)).sum } })
  else if q = 3 then freeCopy false f s c
  else if q = 4 then
    let s := (partOf s f).colls.foldl (fun s x => if x.2.cmd = some (c.seq, none) then freeColl f s x.2 else s) s
    let s := modPart s f (fun p => { p with colls := tabMapV (fun _ y =>
      if y.cmd = some (c.seq, none) then { y with running := false, triggered := [], cmd := none, epoch := (y.epoch + 1) % 2 ^ 32 } else y) p.colls })
    match targetPart s f c with
    | none => s
    | some n =>
      (tabKeys (fun _ y => y.asking != [] && y.askCmd == some (f, c.seq)) (partOf s n).colls).foldl (fun s h => dropHandle s n h) s
  else s

/-- One command of a destroyed queue (R246 step 4): stopped with S_ABORTED unless it had completed, its record written while there is room,
its fence set. -/
def retireCmd (f q : Nat) (s : State) (c : Cmd) : State :=
  let stopped := c.phase ≠ .done
  let s := if stopped then stopWork s f q c else s
  let s := if stopped then { s with cq := { s.cq with aborted := s.cq.aborted + 1 } } else s
  let c := if stopped then { c with phase := .done, status := sAborted, result := 0 } else c
  if cqRoom (queueOf s f q) || (cmdNocomp c && c.status = sOk) then writeCompletion s f q c
  else
    let s := { s with cq := { s.cq with unreported := s.cq.unreported + 1 } }
    modQueue (signalOf s f c).1 f q (fun y => { y with cmds := y.cmds.filter (fun d => d.seq != c.seq) })

/-- Steps 4 and 5 of R246: every engine has acknowledged. -/
def queueGone (s : State) (f q : Nat) : State :=
  let s := (queueOf s f q).cmds.foldl (retireCmd f q) s
  modQueue s f q (fun _ => {})

/-- The abort message to the engines of other modules that hold work of the queue: shares of kernels, or commands at another module's sequencer (R246 step
2; its form is the model's, log 33). -/
def sendStops (s : State) (f q : Nat) : State :=
  if q = 1 then ((queueOf s f 1).cmds.filterMap (fun c => if c.phase = .done then none else c.sentTo)).eraseDups.foldl (fun s m => sendControl s f m 0 ctlQueueStop 0 []) s
  else (partOf s f).launches.foldl (fun s x => if x.2.live then x.2.left.foldl (fun s m => sendControl s f m x.1 ctlStop 0 []) s else s) s

/-- The counts of CQ_QRESULT start again with each destruction (R246, R254). -/
def countsFresh (s : State) : State := { s with cq := { s.cq with aborted := 0, unreported := 0 } }

/-- Step 1 and 2 of R246. -/
def queueStart (s : State) (f q : Nat) : State :=
  let e := enginesOf s f q
  if e = [] then queueGone s f q
  else
    let s := if q = 1 || q = 2 then sendStops s f q else s
    modQueue s f q (fun x => { x with destroying := true, unacked := e })

/-- A share of a kernel started from another module is stopped without save records (R247). -/
def stopShare (s : State) (n l : Nat) : State :=
  let x := launchOf s n l
  let s := { s with cores := tabMapV (fun _ k => if k.mode != .idle && k.part == n && k.launch == l then freeCore k else k) s.cores }
  modPart s n (fun p => { p with
    launches := p.launches.filter (fun y => y.1 != l)
    saves := p.saves.filter (fun r => r.launch != l)
    carve := { p.carve with extra := p.carve.extra - spillPages x } })

/-- Steps 4 and 5 of R249: streams end without records, journal entries go, rings stop, handles and graphs are freed, fences take ERROR, spill areas
return, the context is NONE. The partner drops the entries' mirrors. The stream table's area (R188) and the verdicts counted (R217) are the partition's,
and no core holds an image of the context any longer. -/
def ctxGone (s : State) (n : Nat) : State :=
  let vd := (partOf s n).vd
  let s := if vd.partnerValid then sendAtlas s vd.partner atlUnmirror 0 (natBytes 8 vd.vdid ++ natBytes 8 allStreams) else s
  let s := (List.range (partOf s n).fences.count).foldl (fun s i => fenceError s n i) s
  let tag := (partOf s n).ctx.tag
  let s := { s with cores := tabMapV (fun _ k => if k.imageOf.any (fun i => i.1 == tag) then { k with imageOf := none } else k) s.cores }
  modPart s n (fun p => { p with
    ctx := {}
    graphs := [], colls := [], launches := [], saves := [], pools := freeBlocks p (kvBlocks p)
    carve := { p.carve with extra := p.carve.extra - spillSum p.launches }
    str := { tablePlaced := p.str.tablePlaced, nextStep := p.str.nextStep, verdicts := p.str.verdicts }
    journal := { nextJseq := p.journal.nextJseq } })

/-- Every queue of the partition is gone. -/
def queuesGone (p : Part) : Bool := p.queues.all (fun x => !x.2.created)

/-- The destruction that runs through CQ_CTL ends when its queue, or the context, is gone and no module of the context is being reset. -/
def cqSettle (s : State) : State :=
  let f := s.cq.func
  if !s.cq.go then s
  else if s.cq.op = 2 then
    (if (queueOf s f s.cq.queue).created then s else { s with cq := { s.cq with go := false, status := sOk } })
  else if s.cq.op = 4 && (partOf s f).ctx.state = .destroying && queuesGone (partOf s f) && s.cq.waitReset = [] then
    let s := (otherMembers s f).foldl (fun s m => sendControl s f m 0 ctlContext 0 []) (ctxGone s f)
    { s with cq := { s.cq with go := false, status := sOk } }
  else s

/-- A TDI in CONFIG_LOCKED or RUN goes to ERROR, and its context is lost (R335, R336). -/
def tdiError (s : State) (n : Nat) : State :=
  let t := (partOf s n).vf.tdi
  if t = .locked || t = .run then loseCtx (modVf s n (fun v => { v with tdi := .error })) n sContextLost none 0 1 false else s

end Sys2Proof.Machine
end

