-- ==== Sys2Proof/Machine/Fabric.lean ====
section
/-! DEFINITION. The fabric: floods, routing tables, module IDs, the Atlas root and abort waves (R310, R311, R313, R314, R318, R382, R457). -/

namespace Sys2Proof.Machine

-- floods

/-- A module-addressed packet on every link that is UP or DEGRADED, but for one. -/
def flood (s : State) (but : Option Nat) (kind : Nat) (operand : W64) (payload : List Byte) : State :=
  let p := mkPacket s kind 0 0 0 0 0 true operand payload
  { s with links := tabMapV (fun k l => if linkUp l && !linkInTest s k && some k ≠ but then { l with egress := tabMod [] l.egress 0 (· ++ [p]) } else l) s.links }

/-- A flooded packet is passed on over the other links with one hop less, while it has one left (DESIGN CHOICE, log 133) (DESIGN CHOICE, log 106). -/
def relay (s : State) (k : Nat) (p : Packet) : State :=
  if p.ttl ≤ 1 then s
  else { s with links := tabMapV (fun j l => if linkUp l && !linkInTest s j && j ≠ k then { l with egress := tabMod [] l.egress 0 (· ++ [{ p with ttl := p.ttl - 1 }]) } else l) s.links }

/-- A ROUTE packet that tells a link's state (R311; its layout is the model's, log 33). -/
def floodRoute (s : State) (k : Nat) : State :=
  flood s none 0x0B (ctlOperand 0 (k + (linkOf s k).state * 256)) []

-- routing tables (R310, R311)

/-- The module's own member entry: valid, with an empty mask. -/
def ownEntry : W32 := 0x80000000#32

/-- ROUTE (R310, R311): the tables that firmware computes from the floods. A module without a valid ID has none. -/
def execRoute (group members : List (Nat × W32)) (s : State) : Out :=
  if !s.glb.idValid then .next { s with fab := { s.fab with rtGroup := [], rtMember := [] } }
  else
    let g := group.foldl (fun t e => if e.1 < 512 then tabSet 0 t e.1 e.2 else t) s.fab.rtGroup
    let m := members.foldl (fun t e => if e.1 < 512 then tabSet 0 t e.1 e.2 else t) s.fab.rtMember
    .next { s with fab := { s.fab with rtGroup := g, rtMember := tabSet 0 m (s.glb.moduleId % 512) ownEntry } }

/-- LINK_STATE_CHANGE (R311, R317, R320): a link's new state, and the ROUTE flood. A link that loses its peer goes DOWN; the states that
training gives arise there. -/
def execLinkStateChange (k st : Nat) (s : State) : Out :=
  let l := linkOf s k
  if k > 23 || st > 5 || (st ≠ l.state && (st ≠ 0 || l.state = 5)) then .next s
  else
    let s := if st = l.state then s else setLink s k st 0
    .next (floodRoute s k)

-- module IDs (R313)

/-- LNK_MODID_WRITE (R313, R320): a claim starts; a write while a claim runs or an ID is valid, or with [19:18] set, is ignored (DEDUCED, log 54). -/
def execLnkModidWrite (v : W32) (s : State) : Out :=
  let id := bits v.toNat 19 0
  if s.fab.claiming || s.glb.idValid || id ≥ 2 ^ 18 then .next s
  else
    let s := { s with fab := { s.fab with modidReg := id, claiming := true, conflict := false } }
    .next (flood s none 0x0C (ctlOperand 0 id) [])

/-- ID_CONFLICT noted here (R313, R374). -/
def idConflict (s : State) (id : Nat) : State :=
  let s := { s with fab := { s.fab with event := s.fab.event ||| 2 } }
  event s 5 1 3 0 10 0 none none [BitVec.ofNat 64 (id * 2 ^ 32), 0, 0]

/-- A claim that this module answers with a conflict (R313): of its own valid ID, or of the ID that it claims too; none for any other. -/
def claimAnswer (s : State) (id : Nat) : Option State :=
  if s.glb.idValid && s.glb.moduleId = id then some (flood (idConflict s id) none 0x0C (ctlOperand 1 id) [])
  else if s.fab.claiming && s.fab.modidReg = id then
    some (flood (idConflict { s with fab := { s.fab with conflict := true } } id) none 0x0C (ctlOperand 1 id) [])
  else none

/-- ID_CLAIM (R313): a claim of this module's valid ID is answered with a conflict; two claimants of one ID both stay invalid; any other claim
is relayed. -/
def execIdClaim (k id : Nat) (s : State) : Out :=
  if k > 23 then .next s
  else match claimAnswer s id with
    | some s => .next s
    | none => .next (flood s (some k) 0x0C (ctlOperand 0 id) [])

/-- An ID_CLAIM packet, a claim or a conflict answer: it is for this module, or it is relayed. -/
def claimHeard (s : State) (k : Nat) (p : Packet) (answer : Bool) (id : Nat) : State :=
  if answer then
    (if s.fab.claiming && s.fab.modidReg = id then (if s.fab.conflict then s else idConflict { s with fab := { s.fab with conflict := true } } id)
     else relay s k p)
  else (claimAnswer s id).getD (relay s k p)

/-- A partition's own module renamed: in its map, in its range entries, and in the ownership tokens of its streams (R35). -/
def renamePart (old id : Nat) (p : Part) : Part :=
  { p with
    vd := { p.vd with members := p.vd.members.map (fun m => if m.rank = p.vd.rank then { m with modId := id } else m) }
    ranges := p.ranges.map (fun r => if r.kind = 1 && r.modId = old then { r with modId := id } else r)
    str := { p.str with tokens := tabMapV (fun _ t => if t.1 ≠ 0 && t.2 = old then (t.1, id) else t) p.str.tokens } }

/-- The rewrite of R35 for a partition made, or left by a warm reset, while the module had no valid ID: at a new edition, and with no range cache left
that holds an old entry (R162). -/
def renameModule (id : Nat) (s : State) (n : Nat) : State :=
  let vd := (partOf s n).vd
  if vd.members.all (fun m => m.rank != vd.rank || m.modId == id) then s
  else bumpEdition (dropCached (modPart s n (renamePart 0 id)) n (fun _ => true)) n .other

/-- ID_CLAIM_TIMEOUT (R34, R35, R310, R313): 10 ms without a conflict make the ID valid; its own table entry appears and the routes are flooded. -/
def execIdClaimTimeout (s : State) : Out :=
  if !s.fab.claiming then .next s
  else if s.fab.conflict then .next { s with fab := { s.fab with claiming := false } }
  else
    let id := s.fab.modidReg
    let s := { s with
      glb := { s.glb with moduleId := id }
      fab := { s.fab with claiming := false, rtMember := tabSet 0 s.fab.rtMember (id % 512) ownEntry } }
    let s := (livePartsOf s).foldl (renameModule id) s
    let s := { s with glb := { s.glb with idValid := true } }
    .next (flood s none 0x0B (ctlOperand 1 id) [])

-- the Atlas root (R314, R457)

/-- This module is the Atlas root of its part. -/
def isRoot (s : State) : Bool := s.fab.rootValid && s.glb.idValid && s.fab.rootId == s.glb.moduleId

/-- A heartbeat heard (R314, R457): a module notes the root; a root yields to a lower one, and one that hears a higher one keeps the role and collects
the VDIDs of the joined part. The answer says whether the heartbeat goes on: a module without a valid ID passes only ROUTE and ID_CLAIM on (R310). -/
def heartbeatHeard (s : State) (id : Nat) : State × Bool :=
  if isRoot s then
    if id < s.glb.moduleId then ({ s with fab := { s.fab with rootId := id, collected := false, vdids := [] } }, true)
    else ({ s with fab := { s.fab with collected := s.fab.collected && id == s.glb.moduleId } }, false)
  else if s.fab.rootValid && s.fab.rootId < id then (s, false)
  else ({ s with fab := { s.fab with rootValid := true, rootId := id } }, s.glb.idValid)

/-- ROOT_HEARTBEAT (R314, R457): the root floods its own; any other is heard, and goes on. -/
def execRootHeartbeat (id : Nat) (s : State) : Out :=
  let beat (s : State) : State := flood s none 0x09 (ctlOperand atlHeartbeat id) []
  let r := heartbeatHeard s id
  .next (if r.2 || (isRoot s && id = s.glb.moduleId) then beat r.1 else r.1)

/-- HEARTBEAT_TIMEOUT (R314): 5 ms without a heartbeat; the lowest valid ID known to be alive takes the role and asks the others for their
live VDIDs (DEDUCED, log 173). -/
def execHeartbeatTimeout (alive : List Nat) (s : State) : Out :=
  if isRoot s then .next s
  else if s.glb.idValid && alive.all (fun a => decide (s.glb.moduleId ≤ a)) then
    let s := { s with fab := { s.fab with rootValid := true, rootId := s.glb.moduleId, collected := false, vdids := [] } }
    .next ((alive.filter (· != s.glb.moduleId)).foldl (fun s a => sendAtlas s a atlCollect 0 []) s)
  else .next { s with fab := { s.fab with rootValid := false } }

/-- The members of a list that occur in it more than once. -/
def repeated (l : List Nat) : List Nat := (l.filter (fun x => decide (l.count x > 1))).eraseDups

-- abort waves (R318, R382)

/-- A virtual device's slices on this module abort for a context that is destroyed (R249, R382). -/
def destroyHere (s : State) (n : Nat) : State :=
  stopCores (modPart s n (fun p => abortPart false none sAborted 0 { p with ctx := { p.ctx with state := .destroying } })) n

/-- ABORT (R318, R382, R395): the first wave of a serial stops the virtual device's slices here; the context's cause is the first to reach
it. -/
def execAbort (vdid cause status origin count : Nat) (s : State) : Out :=
  if s.fab.serials.contains (origin, count) then .next s
  else
    let s := { s with fab := { s.fab with serials := s.fab.serials ++ [(origin, count)] } }
    match partOfVdid s vdid with
    | none => .next s
    | some n =>
      if cause = 2 then .next (if (partOf s n).ctx.state = .none then s else destroyHere s n)
      else .next (loseHere s n status none 0 (cause == 3))

end Sys2Proof.Machine
end

