-- ==== Sys2Proof/Machine/Queue.lean ====
section
/-! DEFINITION. Queues, doorbells, fetching and starting commands, completion records, fences, contexts (R219–R242, R246–R255, R327, R331, R335, R336, R453). -/

namespace Sys2Proof.Machine

/-- A doorbell write ignored and logged (R221, R223, R327). -/
def doorbellLog (s : State) (f v : Nat) : State :=
  let s := { s with cq := { s.cq with event := s.cq.event ||| 2 } }
  event s 3 1 4 0 0 0 (if f < 64 then some f else none) none [0, BitVec.ofNat 64 v, 0]

/-- The port on which a function's doorbells count: the VF's active port, either for the PF (R327). -/
def doorbellPort (s : State) (f port : Nat) : Bool := f = 64 || port == b2n (partOf s f).vf.active

/-- SQ_TAIL_WRITE (R221, R224, R241, R327). -/
def execSqTailWrite (f q port : Nat) (tail : W32) (s : State) : Out :=
  let x := queueOf s f q
  let t := tail.toNat
  if !x.created || x.destroying || (f < 64 && (partOf s f).ctx.state = .destroying) then .next s
  else if !doorbellPort s f port then .next (doorbellLog s f t)
  else
    let out := (t + 2 ^ 32 - x.fetched) % 2 ^ 32
    if (t + 2 ^ 32 - x.sqTail) % 2 ^ 32 ≥ 2 ^ 31 || out > 2 ^ x.sqLog2 then .next (doorbellLog s f t)
    else .next (modQueue s f q (fun y => { y with sqTail := t }))

/-- CQ_HEAD_WRITE (R223, R224, R241, R327). -/
def execCqHeadWrite (f q port : Nat) (head : W32) (s : State) : Out :=
  let x := queueOf s f q
  let h := head.toNat
  if !x.created || x.destroying || (f < 64 && (partOf s f).ctx.state = .destroying) then .next s
  else if !doorbellPort s f port then .next (doorbellLog s f h)
  else
    let d := (h + 2 ^ 32 - x.cqHead) % 2 ^ 32
    if d > (x.written + 2 ^ 32 - x.cqHead) % 2 ^ 32 then .next (doorbellLog s f h)
    else .next (modQueue s f q (fun y => { y with cqHead := h }))

/-- A function's queues fetch (R241, R331, R335). -/
def fetches (s : State) (f : Nat) : Bool :=
  if f = 64 then true
  else
    let p := partOf s f
    (p.ctx.state == .active || p.ctx.state == .lost) && portUsable s f (b2n p.vf.active) && !p.vf.noPort && !(p.vf.tdi == .locked || p.vf.tdi == .error)

/-- A queue waits to be served by its port's host fetch unit: units lie below its tail, and not only part of a packet (R219, R221). -/
def waitsForFetch (s : State) (f q : Nat) : Bool :=
  let x := queueOf s f q
  x.created && !x.destroying && fetches s f && x.sqTail != x.fetched && x.partialAt != some x.sqTail

/-- Functions other than `f` whose queue `q` waits at the same port. -/
def fetchRivals (s : State) (f q : Nat) : List Nat :=
  tabKeys (fun g _ => g != f && portFor s g == portFor s f && waitsForFetch s g q) s.parts

/-- Packet fetches of the round under way, of a function's queue (R219). -/
def roundFetches (s : State) (f q : Nat) : Nat := tabGet 0 (portOf s (portFor s f)).fetchRound (q * 128 + f)

/-- The host fetch unit serves this queue next: no queue of a lower number waits, and the function has fetches of the round left, or no other function
has, so that a new round begins (R219). -/
def fetchTurn (s : State) (f q : Nat) : Bool :=
  let left (g : Nat) : Bool := decide (roundFetches s g q < (queueOf s g q).weight)
  (List.range q).all (fun r => !waitsForFetch s f r && fetchRivals s f r == []) && (left f || !(fetchRivals s f q).any left)

/-- One fetch counted in its round; a function without fetches left begins the next round. -/
def noteFetch (s : State) (f q : Nat) : State :=
  let again := !decide (roundFetches s f q < (queueOf s f q).weight)
  modPort s (portFor s f) (fun p =>
    let r := if again then p.fetchRound.filter (fun x => x.1 / 128 != q) else p.fetchRound
    { p with fetchRound := tabMod 0 r (q * 128 + f) (· + 1) })

/-- A fetched packet as a command. -/
def cmdOf (x : Queue) (w : List W64) : Cmd :=
  let blk := 2 * pktLen w
  let fence := pktFence w
  { seq := x.expSeq, pseq := pktSeq w, opc := pktOpc w, ctx := pktCtx w, flags := pktFlags w, fwait := pktFwait w, fsig := pktFsig w
    waitVal := if fence then bits (w.getD blk 0).toNat 47 0 else 0
    sigVal := if fence then bits (w.getD (blk + 1) 0).toNat 47 0 else 0
    words := w }

/-- A packet that is not run: complete with its status; its SIGNAL flag counts only while its FSIG names a fence, and not where the failed check is on the
fence index itself (R229). -/
def rejectedCmd (fs : Fences) (c : Cmd) (onFence : Bool) (status result : Nat) : Cmd :=
  let keep := cmdSignal c && fs.exist && decide (c.fsig < fs.count) && !onFence
  let fl := if cmdSignal c && !keep then c.flags - 2 else c.flags
  { c with flags := fl, phase := .done, status, result }

/-- A packet taken from a ring: what becomes of it as a command, and the units that count as fetched (R221, R222, R229, R241). -/
def fetchedCmd (s : State) (f q : Nat) (w : List W64) : Cmd × Nat :=
  let x := queueOf s f q
  let n := pktLen w + 1
  let room := 2 ^ x.sqLog2
  let pos := x.fetched % room
  let c := cmdOf x w
  let fs := (partOf s f).fences
  if pos + n > room then (rejectedCmd fs c false sBadPacket 0, room - pos)
  else if pktSeq w ≠ x.expSeq then (rejectedCmd fs c false sBadPacket x.expSeq, n)
  else match packetCheck s f q w with
    | some st => (rejectedCmd fs c (contentCheck s f q w).isNone st 0, n)
    | none => (if x.stale ≠ 0 || (f < 64 && (partOf s f).ctx.state = .lost) then { c with phase := .done, status := sContextLost } else c, n)

/-- PACKET_FETCH (R219, R221, R222, R229, R241): `units` are the packet's 64-bit words as read from the ring. -/
def execPacketFetch (f q : Nat) (units : List W64) (s : State) : Out :=
  let x := queueOf s f q
  let n := pktLen units + 1
  if !waitsForFetch s f q || !fetchTurn s f q || units.length < 2 * n then .next s
  else if (x.sqTail + 2 ^ 32 - x.fetched) % 2 ^ 32 < n then .next (modQueue s f q (fun y => { y with partialAt := some y.sqTail }))
  else
    let r := fetchedCmd s f q (units.take (2 * n))
    .next (modQueue (noteFetch s f q) f q (fun y => { y with
      cmds := y.cmds ++ [r.1], fetched := (y.fetched + r.2) % 2 ^ 32, expSeq := (y.expSeq + 1) % 2 ^ 32, stale := y.stale - r.2 }))

/-- The fence a command waits on, as its queue's function sees it (R236, R237). -/
def fenceErrorSeen (s : State) (f i : Nat) : Bool := (fenceSeen s f i).getLsbD 63

/-- What the state of the context lets a fetched command do (R241, R249). -/
inductive CtxSays where
  | run | hold | lost | gone
  deriving DecidableEq, Repr

def ctxSays (s : State) (f : Nat) (c : Cmd) : CtxSays :=
  if f = 64 && c.ctx = 0 then .run
  else match targetPart s f c with
    | none => .gone
    | some n => match (partOf s n).ctx.state with
      | .active => .run
      | .lost => .lost
      | .recovering => .hold
      | .frozen => .hold
      | _ => .gone

/-- A fetched command's place in its queue lets it start: every earlier one has started, and completed where SERIAL asks for it, no WAIT still waits
before it, and the completion ring has room (R220, R223). -/
def inTurn (x : Queue) (c : Cmd) : Bool :=
  let before := x.cmds.takeWhile (fun d => d.seq != c.seq)
  c.phase == .fetched && !x.destroying && cqRoom x && !before.any (fun d => d.phase == .fetched || (d.phase == .started && d.opc == 2)) &&
  !(cmdSerial c && !before.isEmpty)

/-- A queue has a command that its engine could run now (R220, R237, R241). -/
def couldStart (s : State) (f q : Nat) : Bool :=
  let x := queueOf s f q
  match x.cmds.find? (inTurn x) with
  | none => false
  | some c => ctxSays s f c == .run && (!cmdWait c || (!fenceErrorSeen s f c.fwait && waitSatisfied (fenceSeen s f c.fwait) c.waitVal))

/-- The engine's interleaving lets a queue start a command: it has commands of its WEIGHT left in the round, or no other function that the engine serves
and that could start one has (R20, R219). -/
def startTurn (s : State) (f q : Nat) : Bool :=
  let left (g : Nat) : Bool := decide ((queueOf s g q).starts < (queueOf s g q).weight)
  left f || !(tabKeys (fun g _ => g != f && ownEngine s g q == ownEngine s f q && couldStart s g q) s.parts).any left

/-- One start counted in its round; a queue without any left begins the next round of its engine. -/
def noteStart (s : State) (f q : Nat) : State :=
  let again := !decide ((queueOf s f q).starts < (queueOf s f q).weight)
  let s := if again then (tabKeys (fun g p => ownEngine s g q == ownEngine s f q && (tabGet {} p.queues q).created) s.parts).foldl
    (fun s g => modQueue s g q (fun x => { x with starts := 0 })) s else s
  modQueue s f q (fun x => { x with starts := x.starts + 1 })

/-- COMMAND_START (R20, R219, R220, R223, R227, R237): in ring order, after the fence wait, while the completion ring has room. -/
def execCommandStart (f q seq : Nat) (s : State) : Out :=
  match findCmd s f q seq with
  | none => .next s
  | some c =>
    if !inTurn (queueOf s f q) c then .next s
    else match ctxSays s f c with
      | .hold => .next s
      | .lost => .next (finish s f q seq sContextLost 0)
      | .gone => .next (finish s f q seq sAborted 0)
      | .run =>
        if cmdWait c && fenceErrorSeen s f c.fwait then .next (finish s f q seq sAborted 0)
        else if cmdWait c && !waitSatisfied (fenceSeen s f c.fwait) c.waitVal then .next s
        else if !startTurn s f q then .next s
        else .next (modCmd (noteStart s f q) f q seq (fun d => { d with phase := .started, begun := true, start := s.pwr.meridian }))

/-- Commands of Q0, Q1 and Q5 complete in ring order (R220). -/
def inOrder (q : Nat) : Bool := q = 0 || q = 1 || q = 5

/-- COMPLETION_RECORD (R223, R231, R238): the record of a complete command is written and its signal applies. -/
def execCompletionRecord (f q seq : Nat) (s : State) : Out :=
  let x := queueOf s f q
  match findCmd s f q seq with
  | none => .next s
  | some c =>
    if c.phase ≠ .done || x.destroying || (inOrder q && (x.cmds.head?.map (·.seq)) ≠ some seq) then .next s
    else if !cqRoom x && !(cmdNocomp c && c.status = sOk) then .next s
    else .next (writeCompletion s f q c)

/-- COMMAND_TIMEOUT (R227, R374): the command completes with S_TIMEOUT and the context is lost. The timer of a command runs from its start, and not while a
WAIT waits on its fence. -/
def execCommandTimeout (f q seq : Nat) (s : State) : Out :=
  let x := queueOf s f q
  match findCmd s f q seq with
  | none => .next s
  | some c =>
    if !c.begun || (c.phase = .started && c.opc = 2) || x.timeout = 0 then .next s
    else
      let n := targetPart s f c
      let s := event s 3 4 1 sTimeout 0 0 n (some (q, c.pseq)) []
      let s := finish s f q seq sTimeout 0
      match n with
      | none => .next s
      | some n => .next (loseCtx s n sTimeout (if f < 64 then some (q, c.seq) else none) 0 1 false)

/-- FENCE_STANDBY_ACK (R236): the oldest change that the standby front has acknowledged takes effect. -/
def execFenceStandbyAck (n : Nat) (s : State) : Out :=
  match (partOf s n).fences.unacked with
  | [] => .next s
  | (i, w) :: r => .next (fenceEffect (modPart s n (fun p => { p with fences := { p.fences with unacked := r } })) n i w)

/-- The code under which the answer to a lock stands in `answers` (log 71). -/
abbrev ansLock : Nat := 32

/-- A LOCK_INTERFACE ends when every member has locked its Legend entries (R335, R347); in quarantine no TDI locks (R367). -/
def lockSettle (s : State) (n : Nat) : State :=
  if (partOf s n).vd.locking ≠ some [] then s
  else
    let s := modVd s n (fun v => { v with locking := none })
    if s.sec.quarantine then answerMgmt s ansLock false [BitVec.ofNat 64 n]
    else answerMgmt (modVf s n (fun v => { v with tdi := .locked })) ansLock true [BitVec.ofNat 64 n]

/-- A module has locked its entries, or is gone. -/
def lockedAt (s : State) (n mid : Nat) : State :=
  lockSettle (modVd s n (fun v => { v with locking := v.locking.map (fun l => l.filter (· != mid)) })) n

/-- A member module of a virtual device is a failed part (R383, R384): the context enters RECOVERING, and the recovery edition marks the
member absent. Ranges that were going to it or coming from it stay where they are. -/
def memberFails (s : State) (n modId : Nat) : State :=
  let vd := (partOf s n).vd
  match vd.members.find? (fun m => m.modId == modId && m.present) with
  | none => s
  | some m =>
    let front := m.rank == vd.frontRank
    let stand := vd.standbyRank.filter (fun r => r != m.rank && vd.members.any (fun x => x.rank == r && x.present))
    let s := loseCtx s n sContextLost none 0 3 (!front || stand.isSome)
    let s := modPart s n (fun p => { p with aways := p.aways.filter (fun a => a.to_ != some modId), coming := p.coming.filter (fun c => c.src != modId) })
    let s := lockedAt (modVd s n (fun v => { v with members := v.members.map (fun x => if x.modId = modId then { x with present := false } else x) })) n modId
    match front, stand with
    | true, some r => recoveryEdition (if isArbiter (partOf s n).vd then modVd s n (fun v => moveFront v r) else s) n (.seq (.absent m.rank) (.front r))
    | _, _ => recoveryEdition s n (.absent m.rank)

/-- FENCE_STANDBY_TIMEOUT (R236, R383): a standby unreachable for 10 ms is a failed module; waiting changes take effect without it. -/
def execFenceStandbyTimeout (n : Nat) (s : State) : Out :=
  if !fenceWaits s n || (partOf s n).fences.unacked = [] then .next s
  else
    let w := (partOf s n).fences.unacked
    let s := memberFails s n (standbyModule (partOf s n).vd)
    let s := modPart s n (fun p => { p with fences := { p.fences with unacked := [] } })
    .next (w.foldl (fun s x => fenceEffect s n x.1 x.2) s)

-- the commands that any queue takes (R233)

/-- NOP (R233): does nothing and completes. -/
def execNop (f q seq : Nat) (s : State) : Out :=
  match startedCmd s f q seq 0x00 with
  | none => .next s
  | some _ => .next (finish s f q seq sOk 0)

/-- WAIT (R233, R237): completes when its fence is at or after the value, with S_ABORTED when the fence is in ERROR. -/
def execWait (f q seq : Nat) (s : State) : Out :=
  match startedCmd s f q seq 0x02 with
  | none => .next s
  | some c =>
    let i := cmdWord c 24
    if fenceErrorSeen s f i then .next (finish s f q seq sAborted 0)
    else if waitSatisfied (fenceSeen s f i) (bits (cmdWord c 16) 47 0) then .next (finish s f q seq sOk 0)
    else .next s

/-- SIGNAL (R233, R238): completes; the value it signals, or the ERROR it sets, follows its completion record, as every signal does. -/
def execSignal (f q seq : Nat) (s : State) : Out :=
  match startedCmd s f q seq 0x03 with
  | none => .next s
  | some _ => .next (finish s f q seq sOk 0)

/-- Some other command of a function's queues waits on a fence or will signal one (R236). -/
def fencesInUse (s : State) (f : Nat) (self : Nat × Nat) : Bool :=
  (partOf s f).queues.any (fun x => x.2.cmds.any (fun c =>
    (x.1, c.seq) != self && ((cmdWait c && c.phase == .fetched) || cmdSignal c || (c.opc == 2 && c.phase != .done) || c.opc == 3)))

/-- The whole fence table written to the standby front's copy (R236; layout of log 33). -/
def sendFenceTable (s : State) (n mid : Nat) : State :=
  let fs := (partOf s n).fences
  sendControl s n mid 0 ctlFenceTable fs.count (natBytes 8 fs.shadow ++ fs.words.flatMap (fun x => natBytes 8 x.1 ++ natBytes 8 x.2.toNat))

/-- FENCE_SETUP (R236): the count, every fence zero, the shadow address. -/
def execFenceSetup (f seq : Nat) (s : State) : Out :=
  match startedCmd s f 0 seq 0x04 with
  | none => .next s
  | some c =>
    let t := if c.ctx = 0 then some 64 else targetPart s f c
    match t with
    | none => .next (finish s f 0 seq sAborted 0)
    | some t =>
      let fs := (partOf s t).fences
      let cnt := cmdWord c 16
      if fencesInUse s t (if t = f then (0, seq) else (8, 0)) || (fs.exist && cnt < fs.count) then .next (finish s f 0 seq sRefused 0)
      else
        let set := fs.words.filter (fun x => decide (x.1 < cnt))
        let s := modPart s t (fun p => { p with fences := { p.fences with exist := true, count := cnt, shadow := cmdWord c 24, unacked := [] } })
        let s := if fenceWaits s t then sendFenceTable s t (standbyModule (partOf s t).vd) else s
        let s := set.foldl (fun s x => fenceChange s t x.1 0) s
        .next (finish s f 0 seq sOk 0)

/-- FENCE_SIGNAL (R239): the register write that signals, sets ERROR or resets a fence. -/
def execFenceSignal (f : Nat) (value : W64) (s : State) : Out :=
  let v := value.toNat
  let i := bits v 59 48
  let val := bits v 47 0
  let p := partOf s f
  if f < 64 && !p.vd.front then .next s
  else if f > 64 then .next s
  else if !p.fences.exist || i ≥ p.fences.count then
    .next (event { s with cq := { s.cq with event := s.cq.event ||| 4 } } 3 1 3 0 0 0 (if f < 64 then some f else none) none
      [BitVec.ofNat 64 i, BitVec.ofNat 64 val, 0])
  else if bitOf v 62 then
    .next (fenceChange s f i (BitVec.ofNat 64 (val + b2n (bitOf v 63) * 2 ^ 63)))
  else if bitOf v 63 then .next (fenceError s f i)
  else .next (fenceSignalValue s f i val).1

-- queues and contexts (R225, R226, R240, R241, R246, R249, R253)

/-- An operation of CQ_CTL that the row stands for is the one that GO has started. -/
def cqStarted (s : State) (op func : Nat) : Bool := s.cq.go && s.cq.op == op && s.cq.func == func

/-- GO cleared with a status (R253). -/
def cqDone (s : State) (status : Nat) : State := { s with cq := { s.cq with go := false, status } }

/-- The queue that a descriptor asks for (R225). -/
def descQueue (d : Nat → Nat) : Queue :=
  { created := true, sqBase := d 0, cqBase := d 1, pktver := bits (d 2) 59 56, sqLog2 := bits (d 2) 52 48, cqLog2 := bits (d 2) 44 40
    weight := bits (d 2) 39 32, timeout := bits (d 2) 31 16, vector := bits (d 2) 10 0, pv := bitOf (d 3) 20, pasid := bits (d 3) 19 0 }

/-- The descriptor's fields are in range and its reserved bits zero (R225, R226). -/
def descOk (f : Nat) (d : Nat → Nat) : Bool :=
  let x := descQueue d
  decide (d 0 % 4096 = 0) && decide (d 1 % 4096 = 0) && decide (bits (d 2) 63 60 = 1) && decide (bits (d 2) 55 53 = 0) &&
  decide (bits (d 2) 47 45 = 0) && decide (bits (d 2) 15 11 = 0) && decide (d 3 < 2 ^ 21) && (List.range 4).all (fun i => decide (d (4 + i) = 0)) &&
  decide (8 ≤ x.sqLog2) && decide (x.sqLog2 ≤ 16) && decide (6 ≤ x.cqLog2) && decide (x.cqLog2 ≤ 16) && decide (1 ≤ x.weight) &&
  decide (x.vector < (if f = 64 then 2048 else 128))

/-- QUEUE_CREATE (R225, R226, R336). -/
def execQueueCreate (func queue : Nat) (s : State) : Out :=
  if !cqStarted s 1 func || s.cq.queue ≠ queue then .next s
  else
    let d (i : Nat) : Nat := (tabGet 0 s.cq.qdesc i).toNat
    let s := if func < 64 then tdiError s func else s
    let pv := bits (d 2) 59 56
    if (pv ≠ 2 && pv ≠ 3) || (pv = 2 && queue = 1) then .next (cqDone s sUnsupported)
    else if !descOk func d || queue > 5 || func > 64 then .next (cqDone s sBadPacket)
    else if (queueOf s func queue).created || (func < 64 && ((partOf s func).ctx.state ≠ .active || !(partOf s func).vd.front)) then
      .next (cqDone s sRefused)
    else .next (cqDone (modQueue s func queue (fun _ => descQueue d)) sOk)

/-- QUEUE_DESTROY (R246, R336): steps 1 and 2; the rest follows the engines' acknowledgements. -/
def execQueueDestroy (func queue : Nat) (s : State) : Out :=
  if !cqStarted s 2 func || s.cq.queue ≠ queue || (s.glb.migBusy && s.glb.migPart == func) then .next s
  else
    let x := queueOf s func queue
    if !x.created || x.destroying then .next (cqDone s sRefused)
    else
      let s := if func < 64 then tdiError s func else s
      .next (cqSettle (queueStart (countsFresh s) func queue))

/-- CTX_SET (R240, R241, R336): the tag is unique among the live contexts of the module; the members learn it. A new context has no fence table yet
(R236, R239). -/
def execCtxSet (func : Nat) (s : State) : Out :=
  if !cqStarted s 3 func then .next s
  else
    let tag := s.cq.ctxArg
    let s := if func < 64 then tdiError s func else s
    if func ≥ 64 || !(partOf s func).vd.used || (partOf s func).ctx.state ≠ .none || tag = 0 || tag = 0xFFFF || (partOfTag s tag).isSome then
      .next (cqDone s sRefused)
    else
      let s := modPart s func (fun p => { p with ctx := { tag, state := .active }, fences := {} })
      let s := (otherMembers s func).foldl (fun s m => sendControl s func m 0 ctlContext tag []) s
      .next (cqDone s sOk)

/-- CTX_DESTROY (R249): the context is DESTROYING, the abort wave goes out, its queues are destroyed (DEDUCED, log 96). -/
def execCtxDestroy (func : Nat) (s : State) : Out :=
  if !cqStarted s 4 func || (s.glb.migBusy && s.glb.migPart == func) then .next s
  else if func ≥ 64 || (partOf s func).ctx.state = .none || (partOf s func).ctx.state = .destroying then .next (cqDone s sRefused)
  else
    let s := modCtx s func (fun c => { c with state := .destroying })
    let away := ((partOf s func).vd.members.filter (fun m => !m.present)).map (·.modId)
    let s := { s with cq := { s.cq with waitReset := away } }
    let s := abortWave s func 2 sAborted
    let s := stopCores s func
    let s := (tabKeys (fun _ x => x.created && !x.destroying) (partOf s func).queues).foldl (fun s q => queueStart s func q) (countsFresh s)
    .next (cqSettle s)

/-- The stream sequencer, or control firmware, has a command of the queue running, which completes first (R247). -/
def runsFirst (x : Queue) (q engine : Nat) : Bool :=
  (q = 0 || q = 1) && decide (engine < 64) && x.cmds.any (fun c => c.phase == .started && c.opc != 2 && c.sentTo.isNone)

/-- ENGINE_ABORT_ACK (R246 steps 3 to 5, R247). -/
def execEngineAbortAck (f q : Nat) (engine : Nat) (s : State) : Out :=
  let x := queueOf s f q
  if !x.destroying || !x.unacked.contains engine || runsFirst x q engine then .next s
  else
    let s := modQueue s f q (fun y => { y with unacked := y.unacked.filter (· != engine) })
    if (queueOf s f q).unacked = [] then .next (cqSettle (queueGone s f q)) else .next s

/-- ENGINE_ABORT_TIMEOUT (R246, R383): an engine that does not acknowledge is a failed part: this module, or the module it is on. -/
def execEngineAbortTimeout (f q : Nat) (s : State) : Out :=
  let x := queueOf s f q
  match x.unacked with
  | [] => .next s
  | e :: _ => if !x.destroying then .next s
    else if e ≥ 64 then .next (memberFails s f (e - 64))
    else .next (moduleFails s 1)

end Sys2Proof.Machine
end

