-- ==== Sys2Proof/Machine/Collective.lean ====
section
/-! DEFINITION. Collectives: registration, invocation, triggers, the operations of R111 and their completion (R52–R56, R111–R116, R235). -/

namespace Sys2Proof.Machine

-- registration (R111, R112, R114, R235)

/-- Engine of a handle: 0 XE0, 1 XE1 (R114). -/
def collEngine (field handle : Nat) : Nat := match field with | 1 => 0 | 2 => 1 | _ => handle % 2

/-- The partitions' reservations in the staging bank of an engine (R114). -/
def stagingUsed (s : State) (e : Nat) : Nat :=
  (s.parts.map (fun p => ((p.2.colls.filter (fun x => x.2.engine == e)).map (fun x => x.2.staging)).sum)).sum
def stagingBank : Nat := 0x1000000

/-- Bytes reserved for a handle: the contributions, limited to 4 KiB to 1 MiB (R114 gives no size; DESIGN CHOICE, log 40). -/
def stagingFor (co : Coll) : Nat :=
  Nat.min 0x100000 (Nat.max 0x1000 ((List.range co.n).foldl (fun a r => a + srcBytes co r) 0))

/-- A member is told of a handle: its trigger mode, its engine and the bytes to reserve (R112, R114; layout of log 33). -/
def tellHandle (s : State) (n m h : Nat) : State :=
  let co := collOf s n h
  sendControl s n m 0 ctlHandle (h + b2n co.task * 2 ^ 12) (natBytes 8 co.engine ++ natBytes 8 co.staging)

/-- Words of a table read from memory. -/
def tableWords (k : Nat) (bs : List Byte) : List Nat := (pieces k bs).map bytesNat

/-- Pairs of consecutive values. -/
def pairUp : List Nat → List (Nat × Nat)
  | a :: b :: r => (a, b) :: pairUp r
  | _ => []

/-- The lowest handle that is neither registered nor being registered (R112 leaves the choice; log 12). -/
def freeHandle (p : Part) : Option Nat := (List.range 4096).find? (fun h => !(tabGet {} p.colls h).registered && (tabGet {} p.colls h).asking == [])

/-- The registration a packet asks for, without its tables. -/
def collOfCmd (c : Cmd) : Coll := collOfWords (cmdWord c)

/-- A registration for which every member has its reservation stands, and its command completes (R114). -/
def registerSettle (s : State) (n h : Nat) : State :=
  let co := collOf s n h
  if co.asking ≠ [] then s
  else match co.askCmd with
    | some (f, seq) => finish (modColl s n h (fun y => { y with registered := true, askCmd := none })) f 4 seq sOk h
    | none => s

/-- Spans of device virtual addresses that a collective engine reads or writes are translated; `h` holds where the host gives no access (R155, R167). -/
def collTranslate (s : State) (m : Master) (n : Nat) (h : Nat × Nat) (write : Bool) (l : List (Nat × Nat)) : State :=
  l.foldl (fun s x => translateSpan s m n x.1 x.2 write h) s

/-- COLL_REGISTER (R112, R114, R235): the rank table and, for ALL_TO_ALL, the size table are read; `ranks` and `sizes` hold what memory
outside the module returns for them. Every other member is asked for its reservation. -/
def execCollRegister (f seq : Nat) (ranks sizes : List Byte) (s : State) : Out :=
  match startedCmd s f 4 seq 0x50 with
  | none => .next s
  | some c =>
    match targetPart s f c with
    | none => .next (finish s f 4 seq sAborted 0)
    | some n =>
      let co := collOfCmd c
      if (partOf s n).colls.any (fun x => x.2.askCmd == some (f, seq)) then .next s
      else if !collOk co co.chunks (cmdWord c 40) (bits (cmdWord c 16) 18 17) then .next (finish s f 4 seq sBadPacket 0)
      else
        let s := collTranslate s (.coll 0) n (1036, seq) false
          ((cmdWord c 32, 16 * co.n) :: (if co.op = 4 then [(cmdWord c 40, 4 * co.n * co.n)] else []))
        match readSpan s (.coll 0) n (cmdWord c 32) (16 * co.n) ranks,
                 (if co.op = 4 then readSpan s (.coll 0) n (cmdWord c 40) (4 * co.n * co.n) sizes else .ok []) with
        | .ok rb, .ok sb =>
          match freeHandle (partOf s n) with
          | none => .next (finish s f 4 seq sRefused 0)
          | some h =>
            let co := { co with ranks := pairUp (tableWords 8 rb), sizes := tableWords 4 sb, engine := collEngine (bits (cmdWord c 16) 18 17) h }
            let co := { co with staging := stagingFor co }
            if stagingUsed s co.engine + co.staging > stagingBank then .next (finish s f 4 seq sRefused 0)
            else
              let s := modColl s n h (fun _ => { co with registered := false, asking := otherMembers s n, askCmd := some (f, seq) })
              .next (registerSettle ((otherMembers s n).foldl (fun s m => tellHandle s n m h) s) n h)
        | .wait, _ => .next s
        | _, .wait => .next s
        | .ok _, r => .next (engineFails (finish s f 4 seq (readStatus r) 0) n none 12 (cmdWord c 40) r)
        | r, _ => .next (engineFails (finish s f 4 seq (readStatus r) 0) n none 12 (cmdWord c 32) r)

/-- COLL_RELEASE (R114, R233): refused while an invocation is pending; the reservation is erased. -/
def execCollRelease (f seq : Nat) (s : State) : Out :=
  match startedCmd s f 4 seq 0x52 with
  | none => .next s
  | some c =>
    match targetPart s f c with
    | none => .next (finish s f 4 seq sAborted 0)
    | some n =>
      let h := cmdWord c 16
      let co := collOf s n h
      if !co.registered || co.running || co.triggered ≠ [] || co.early ≠ [] || co.arrived ≠ [] then .next (finish s f 4 seq sRefused 0)
      else
        .next (finish (dropHandle s n h) f 4 seq sOk 0)

-- invocations (R112)

/-- What an invocation in COMMAND mode comes to: refused, waiting for the one before it, or running. -/
def invokeColl (s : State) (n h e : Nat) (who : Nat × Option Nat) : Option State :=
  let co := collOf s n h
  if co.running then some s
  else some (modColl s n h (fun y => { y with running := true, cmd := some who, epoch := e }))

/-- The epoch is the next one of a handle that takes commands (R112). -/
def invokeOk (co : Coll) (e : Nat) : Bool :=
  co.registered && !co.task && (e == co.epoch || (co.running && e == (co.epoch + 1) % 2 ^ 32))

/-- COLL_INVOKE (R112, R233): a handle that is unknown or in TASK mode, or a wrong epoch, is refused; an invocation behind a running one
waits for it. -/
def execCollInvoke (f seq : Nat) (s : State) : Out :=
  match startedCmd s f 4 seq 0x51 with
  | none => .next s
  | some c =>
    let h := bits (cmdWord c 16) 11 0
    let e := bits (cmdWord c 16) 63 32
    let co := collOf s f h
    if co.cmd = some (seq, none) then .next s
    else if !invokeOk co e then .next (finish s f 4 seq sRefused 0)
    else match invokeColl s f h e (seq, none) with
      | some s => .next s
      | none => .next s

/-- An epoch starts when the triggers of all N ranks have arrived (R112). -/
def collStart (s : State) (n h : Nat) : State :=
  modColl s n h (fun y => if y.task && !y.running && y.triggered.length ≥ y.n then { y with running := true } else y)

/-- A trigger that has reached its engine (R112, R116): `none` when its epoch is neither the current one nor the next. -/
def takeTrigger (s : State) (n h rank e : Nat) : Option State :=
  let co := collOf s n h
  let add (l : List Nat) : List Nat := if l.contains rank then l else l ++ [rank]
  if e = co.epoch && !co.running then some (collStart (modColl s n h (fun y => { y with triggered := add y.triggered })) n h)
  else if e = co.epoch then some s
  else if e = (co.epoch + 1) % 2 ^ 32 then some (modColl s n h (fun y => { y with early := add y.early }))
  else none

/-- COLL_TRIGGER (R112, R116): rank r is the task of index r (DEDUCED, log 42). -/
def execCollTrigger (n handle rank epoch : Nat) (s : State) : Out :=
  let co := collOf s n handle
  if !co.registered || !co.task || rank ≥ co.n || !co.arrived.contains (rank, epoch) then .next s
  else
    let s := modColl s n handle (fun y => { y with arrived := y.arrived.filter (fun x => x != (rank, epoch)) })
    match takeTrigger s n handle rank epoch with
    | some s => .next s
    | none =>
      let t := tabGet {} (launchOf s n co.launch).tasks rank
      if t.state = .bound then .next (messageFault s t.core sContextLost) else .next s

-- results (R53–R56, R111)

/-- An FP32 result rounded once to the destination format; one that rounds to zero is +0, and `keep` keeps the sign of an exact zero (R56). -/
def narrow (dst : Nat) (keep : Bool) (r : Nat) : Nat × Flg :=
  let v := decodeFloat fFP32 r
  let d := if dst = fFP32 then (r, {}) else toElem dst false true v
  let exactZero := match v with | .fin x => x.mant == 0 | _ => false
  match decodeElem dst d.1 with
  | .fin x => (if x.mant = 0 && !(keep && exactZero) then 0 else d.1, d.2)
  | .nan => ((fmtNaN dst).getD d.1, d.2)
  | _ => d

/-- Sum of one element over the ranks: CSUM or KSUM, then narrowed once; a zero is +0 (R56). Sums set NV and OF alone (R48, R59). -/
def sumElem (co : Coll) (vs : List Val) : Nat × Flg :=
  let r := if co.operator = 0 then canonical (vs.map termOf) else tree (vs.map (fun v => (toElem fFP32 false true v).1))
  let d := narrow co.dst false r.1
  (d.1, { flgOr r.2 d.2 with unf := false })

/-- MAX or MIN of one element over the ranks: exact, in FP32, which holds every contribution, then rounded once (R56, R71). -/
def extremeElem (co : Coll) (cs : List Nat) : Nat × Flg :=
  if co.src = fINT32 then
    let less (a b : Nat) : Bool := decide (signed 32 a < signed 32 b)
    (cs.tail.foldl (fun a b => if co.operator = 2 then (if less a b then b else a) else (if less b a then b else a)) (cs.headD 0), {})
  else
    let ds := cs.map (fun c => (toElem fFP32 false true (decodeElem co.src c)).1)
    let d := narrow co.dst true (ds.tail.foldl (fun a b => if co.operator = 2 then fmaxc fFP32 a b else fminc fFP32 a b) (ds.headD 0))
    (d.1, { d.2 with unf := false })

/-- The reduction of `k` elements over the contributions, in the destination format, with the flags it sets. -/
def reduceAll (co : Coll) (k : Nat) (contrib : List (List Byte)) : List (Nat × Flg) :=
  let rows := contrib.map (unpackCodes (fmtBits co.src) k)
  (List.range k).map (fun j =>
    let cs := rows.map (fun r => r.getD j 0)
    if co.operator ≤ 1 then sumElem co (cs.map (decodeElem co.src)) else extremeElem co cs)

/-- Elements that an operation reduces. -/
def reducedCount (co : Coll) : Nat := if co.op = 0 then co.count else if co.op = 1 then co.n * co.count else 0

/-- The flags of an invocation (R48, R59). -/
def collFlags (co : Coll) (contrib : List (List Byte)) : Flg := (reduceAll co (reducedCount co) contrib).foldl (fun g x => flgOr g x.2) {}

/-- The bytes each rank's destination receives (R111). -/
def collResult (co : Coll) (contrib : List (List Byte)) : List (List Byte) :=
  let w := fmtBits co.dst
  let r := (reduceAll co (reducedCount co) contrib).map (·.1)
  match co.op with
  | 0 => let b := packCodes w r; (List.range co.n).map (fun _ => b)
  | 1 =>
    (List.range co.n).map (fun i => packCodes w ((r.drop (i * co.count)).take co.count))
  | 2 => (List.range co.n).map (fun _ => contrib.flatten)
  | 3 => (List.range co.n).map (fun _ => contrib.getD co.root [])
  | _ => (List.range co.n).map (fun j => (List.range co.n).flatMap (fun i =>
      let row := (co.sizes.drop (i * co.n)).take co.n
      ((contrib.getD i []).drop ((row.take j).sum)).take (row.getD j 0)))

/-- The contributions, rank by rank; `ext` holds what memory outside the module returns. -/
def readContribs (s : State) (m : Master) (n : Nat) (co : Coll) : Nat → List (Nat × Nat) → List (List Byte) → Except (Nat × ReadRes) (List (List Byte))
  | _, [], _ => .ok []
  | r, a :: as, ext =>
    match readSpan s m n a.1 (srcBytes co r) (ext.headD []) with
    | .ok bs => (match readContribs s m n co (r + 1) as ext.tail with | .ok l => .ok (bs :: l) | .error e => .error e)
    | e => .error (a.1, e)

/-- Destinations written in rank order; the first one refused ends it. -/
def writeResults (m : Master) (n : Nat) : State → List (Nat × Nat) → List (List Byte) → State × Option (Nat × ReadRes)
  | s, a :: as, b :: bs =>
    (match writeRefused s m n a.2 b.length with
     | some r => (s, if b = [] then none else some (a.2, r))
     | none => writeResults m n (writeSpan s n a.2 b false) as bs)
  | s, _, _ => (s, none)

/-- The completion message of an epoch to one rank's task (R112): channel 15, the epoch and the status code, in the order of its channel (R309). -/
def tellRank (n h e status : Nat) (s : State) (r : Nat) : State :=
  let co := collOf s n h
  let x := launchOf s n co.launch
  if !x.live then s
  else
    let m : Msg := { src := 2 ^ 31 + h, dst := r, chan := 15, cseq := tabGet 0 co.sent r, payload := natBytes 4 e ++ natBytes 1 status ++ List.replicate 11 0#8 }
    let s := modColl s n h (fun y => { y with sent := tabSet 0 y.sent r ((m.cseq + 1) % 65536) })
    let vd := (partOf s n).vd
    let away (mid : Nat) : State :=
      sendPacket s (mkPacket s 0x01 mid vd.vdid vd.edition r m.cseq false (BitVec.ofNat 64 (m.src + m.chan * 2 ^ 32)) m.payload)
    if x.lo ≤ r && r < x.hi then
      (match forwardPlace s n co.launch r with | some mid => away mid | none => placeRemote s n co.launch s.glb.moduleId m)
    else match homeMember vd (gridSize x) r with
      | none => s
      | some hm => away hm.modId

/-- The end of an epoch (R112, R116): what waits for it completes, every rank's task is told, the next epoch takes the early triggers. -/
def epochEnds (s : State) (n h status : Nat) : State :=
  let co := collOf s n h
  let s := modColl s n h (fun y => { y with
    running := false, cmd := none, bad := false, epoch := (y.epoch + 1) % 2 ^ 32, triggered := y.early, early := [] })
  let s := progress s n
  let s := if co.task then (List.range co.n).foldl (tellRank n h co.epoch status) s else s
  let s := match co.cmd with | some (q, node) => workDone s n 4 q node status co.epoch | none => s
  collStart s n h

/-- NV and OF that an invocation sets: in the registration, and in TASK mode in the cores of its ranks' tasks (R48, R59; DESIGN CHOICE, log 151). -/
def raiseCollFlags (s : State) (n h : Nat) (g : Flg) : State :=
  let co := collOf s n h
  if !g.nv && !g.ovf then s
  else
    let s := modColl s n h (fun y => { y with nv := y.nv || g.nv, ovf := y.ovf || g.ovf })
    if !co.task then s
    else { s with cores := tabMapV (fun _ k => if k.mode != .idle && k.part == n && k.launch == co.launch && k.task < co.n then
             { k with nv := k.nv || g.nv, ovf := k.ovf || g.ovf } else k) s.cores }

/-- COLL_EPOCH_DONE (R111–R113, R116): the invocation finishes. Poison without a backing source completes it with S_POISONED, an address
without translation or right with S_FAULT_XLATE; either loses the context (DESIGN CHOICE, log 95). -/
def execCollEpochDone (n handle : Nat) (contrib : List (List Byte)) (poisoned : Bool) (s : State) : Out :=
  let co := collOf s n handle
  if !co.registered || !co.running || frozen s n then .next s
  else
    let m : Master := .coll (co.engine + 2 * (handle + 1))
    let culprit : Option (Nat × Nat) := match co.cmd with | some (q, none) => some (4, q) | some (q, some _) => if q < 2 ^ 32 then some (2, q) else none | none => none
    let fail (s : State) (va : Nat) (r : ReadRes) : State := engineFails (epochEnds s n handle (readStatus r)) n culprit (12 + co.engine) va r
    let h : Nat × Nat := (1036 + co.engine, match co.cmd with | some (q, none) => q | _ => 2 ^ 32)
    if poisoned || co.bad then .next (fail s 0 .poison)
    else
      let ranks := (List.range co.ranks.length).zip co.ranks
      let s := collTranslate s m n h false (ranks.map (fun x => (x.2.1, srcBytes co x.1)))
      let s := collTranslate s m n h true (ranks.map (fun x => (x.2.2, dstBytes co x.1)))
      match readContribs s m n co 0 co.ranks contrib with
      | .error (_, .wait) => .next s
      | .error (va, r) => .next (fail s va r)
      | .ok bs =>
        match writeResults m n s co.ranks (collResult co bs) with
        | (s', none) => .next (epochEnds (raiseCollFlags s' n handle (collFlags co bs)) n handle sOk)
        | (_, some (_, .wait)) => .next s
        | (s', some (va, r)) => .next (fail s' va r)

end Sys2Proof.Machine
end

