-- ==== Sys2Proof/Machine/Copy.lean ====
section
/-! DEFINITION. The copy engines' commands: COPY, FILL and CONVERT (R39, R41, R46–R50, R72, R109, R218, R233, R247, R248, R456). -/

namespace Sys2Proof.Machine

/-- The copy engine that serves a partition's Q3: the first of its home compute die (R218; which of the two is not architectural, log 12). -/
def copyEngine (s : State) (n : Nat) : Nat := 2 * (((assignedOf s n isCompute).headD 0) / 16)

/-- What one segment of a copy engine's command comes to. -/
inductive Moved where
  | done (s : State)
  | wait (s : State)
  | fails (s : State) (va : Nat) (r : ReadRes)
  deriving DecidableEq, Repr

/-- What a copy engine's transfers for a command, or for a node of a run, hold under (R167). -/
def copyHolder (e seq : Nat) : Nat × Nat := (1028 + e, Nat.min seq (2 ^ 32))

/-- A span written by a copy engine unless something refuses it. -/
def copyWrite (s : State) (n e seq va : Nat) (bs : List Byte) : Moved :=
  let s := translateSpan s (.copy e) n va bs.length true (copyHolder e seq)
  match writeRefused s (.copy e) n va bs.length with
  | some .wait => .wait s
  | some r => .fails s va r
  | none => .done (writeSpan (chargeLines s (.copy e) n va bs.length true) n va bs false)

/-- The command goes on by one segment, or completes, or fails (R109, R248). -/
def segmentEnd (f seq len total : Nat) (m : Moved) : Out :=
  match m with
  | .wait s => .next s
  | .fails s va r => .next (engineFails s f (some (3, seq)) (4 + copyEngine s f) va r)
  | .done s =>
    match findCmd s f 3 seq with
    | none => .next s
    | some c =>
      let s := modCmd s f 3 seq (fun d => { d with moved := c.moved + len })
      if c.moved + len ≥ total then .next (finish s f 3 seq sOk 0) else .next s

/-- One segment of a copy. The spec states no result for a source and a destination that overlap: the bytes are free (DESIGN CHOICE, log 43). -/
def copySegment (s : State) (n e seq src dst len total : Nat) (off : Nat) (ext : List Byte) : Moved :=
  match engineRead s (.copy e) (copyHolder e seq) n (src + off) len ext with
  | (s, .ok bs) =>
    let s := chargeLines s (.copy e) n (src + off) len false
    if src ≠ dst && decide (src < dst + total) && decide (dst < src + total) then
      copyWrite (draw s).2 n e seq (dst + off) ((List.range len).map (Config.freeByte (draw s).1))
    else copyWrite s n e seq (dst + off) bs
  | (s, .wait) => .wait s
  | (s, r) => .fails s (src + off) r

/-- COPY (R233, R248): one segment; `ext` holds what memory outside the module returns for it. -/
def execCopy (f seq : Nat) (ext : List Byte) (s : State) : Out :=
  match startedCmd s f 3 seq 0x40 with
  | none => .next s
  | some c =>
    let total := cmdWord c 32
    let len := Nat.min segmentBytes (total - c.moved)
    segmentEnd f seq len total (copySegment s f (copyEngine s f) seq (cmdWord c 16) (cmdWord c 24) len total c.moved ext)

/-- `k` bytes of a repeated 64-bit pattern (R233). -/
def patternBytes (p k : Nat) : List Byte := (List.replicate (k / 8) (natBytes 8 p)).flatten

/-- FILL (R233, R248): one segment of the pattern. -/
def execFill (f seq : Nat) (s : State) : Out :=
  match startedCmd s f 3 seq 0x41 with
  | none => .next s
  | some c =>
    let total := cmdWord c 32
    let len := Nat.min segmentBytes (total - c.moved)
    segmentEnd f seq len total (copyWrite s f (copyEngine s f) seq (cmdWord c 16 + c.moved) (patternBytes (cmdWord c 24) len))

-- CONVERT (R456)

/-- A block tensor's elements and scales converted to FP32 codes. -/
def fromBlocks (src k : Nat) (rtz : Bool) (elems scales : List Byte) : List Nat :=
  let cs := unpackCodes (fmtBits src) k elems
  ((List.range k).zip cs).map (fun x => (toFloat fFP32 rtz true (scaledElem src x.2 (scales.getD (x.1 / 32) 0#8).toNat)).1)

/-- FP32 codes converted to blocks of 32, the last padded with zero elements, whose codes are zero (R41, R49, R50, R456). -/
def toBlocks (dst : Nat) (rtz : Bool) (cs : List Nat) : List (Nat × List Nat) :=
  (pieces 32 cs).map (fun b =>
    let r := toBlock dst rtz ((b ++ List.replicate (32 - b.length) 0).map (decodeFloat fFP32))
    (r.1, r.2.1.take b.length ++ List.replicate (32 - b.length) 0))

/-- The bytes of the two arrays that a CONVERT writes: elements, and scales where the destination is a block tensor. A copy engine has no place for the
flags of R48 (DESIGN CHOICE, log 144). -/
def convertBytes (src dst k : Nat) (rtz sat blk : Bool) (elems scales : List Byte) : List Byte × List Byte :=
  if !blk then
    (packCodes (fmtBits dst) ((unpackCodes (fmtBits src) k elems).map (fun c => (toElem dst rtz sat (decodeElem src c)).1)), [])
  else if src = fFP32 then
    let bl := toBlocks dst rtz (unpackCodes 32 k elems)
    (packCodes (fmtBits dst) (bl.flatMap (·.2)), bl.map (fun x => BitVec.ofNat 8 x.1))
  else (packCodes 32 (fromBlocks src k rtz elems scales), [])

/-- `len` elements of a CONVERT from element `off` on, for partition `n` (R456, R72); `ext` holds what memory outside the module returns, elements first. -/
def convertRun (s : State) (n seq : Nat) (w : Nat → Nat) (off len : Nat) (ext : List Byte) : Moved :=
  let src := bits (w 40) 3 0
  let dst := bits (w 40) 7 4
  let blk := bitOf (w 40) 10
  let k := bits (w 32) 31 0
  let e := copyEngine s n
  let eb := packedBytes (fmtBits src) len
  let sb := if blk && src ≠ fFP32 then (len + 31) / 32 else 0
  let from_ := w 16 + packedBytes (fmtBits src) off
  let scalesAt := scaleArray (w 16) src k + off / 32
  let s := translateSpan (translateSpan s (.copy e) n from_ eb false (copyHolder e seq)) (.copy e) n scalesAt sb false (copyHolder e seq)
  match readSpan s (.copy e) n from_ eb ext, readSpan s (.copy e) n scalesAt sb (ext.drop eb) with
  | .ok elems, .ok scales =>
    let r := convertBytes src dst len (bitOf (w 40) 8) (bitOf (w 40) 9) blk elems scales
    let s := chargeLines (chargeLines s (.copy e) n from_ eb false) (.copy e) n scalesAt sb false
    (match copyWrite s n e seq (w 24 + packedBytes (fmtBits dst) off) r.1 with
     | .done s' => copyWrite s' n e seq (scaleArray (w 24) dst k + off / 32) r.2
     | m => m)
  | .wait, _ => .wait s
  | .ok _, .wait => .wait s
  | .ok _, r => .fails s scalesAt r
  | r, _ => .fails s from_ r

/-- CONVERT (R248, R456): one segment. -/
def execConvert (f seq : Nat) (ext : List Byte) (s : State) : Out :=
  match startedCmd s f 3 seq 0x42 with
  | none => .next s
  | some c =>
    if !convertLegal (cmdWord c) then .next (finish s f 3 seq sBadPacket 0)
    else
      let total := bits (cmdWord c 32) 31 0
      let len := Nat.min (convertSegment (cmdWord c)) (total - c.moved)
      segmentEnd f seq len total (convertRun s f seq (cmdWord c) c.moved len ext)

end Sys2Proof.Machine
end

