-- ==== Sys2Proof/Machine/Graph.lean ====
section
/-! DEFINITION. Kernel launches and stored graphs: LAUNCH, GRAPH_STORE, GRAPH_PATCH, GRAPH_DESTROY, GRAPH_LAUNCH and the nodes of a run (R67, R89, R90, R93, R112, R193, R194, R204, R234, R243–R245). -/

namespace Sys2Proof.Machine

-- launches (R89, R90, R93, R234)

/-- Who a launch works for: what waits for it, its node, and for a step its graph and descriptor. -/
structure LaunchFor where
  seq : Option Nat
  node : Option Nat
  graph : Nat := 0
  descriptor : Nat := 0
  deriving DecidableEq, Repr

/-- The launch that parameter words ask for, by packet byte (R234), with this partition's share of the grid (R90). -/
def launchOfWords (vd : Vd) (w : Nat → Nat) (who : LaunchFor) : Launch :=
  let gx := bits (w 24) 47 32 + 1
  let gy := bits (w 24) 63 48 + 1
  let gz := bits (w 32) 15 0 + 1
  let total := gx * gy * gz
  let c := totalClusters vd
  let own := ((vd.members.find? (fun m => m.rank == vd.rank)).map (·.compute)).getD 0
  let below := clustersBelow vd vd.rank
  let lo := firstTask total c below
  { live := true, seq := who.seq, node := who.node, graph := who.graph, descriptor := who.descriptor, gx, gy, gz
    coresident := bitOf (w 32) 16, program := bits (w 16) 51 0, progLen := bits (w 24) 13 0, entry := bits (w 24) 28 16
    argLen := bits (w 32) 44 32, args := bits (w 40) 51 0, extent := bits (w 48) 18 0, spillKib := bits (w 48) 48 32
    lo, hi := firstTask total c (below + own), next := lo }

/-- The words of a LAUNCH as sent to a member for its share, with the launch's number on the front (DESIGN CHOICE, log 33). -/
def shareWords (id : Nat) (w : Nat → Nat) (who : LaunchFor) : List Byte :=
  natBytes 8 id ++ natBytes 8 who.graph ++ natBytes 8 who.descriptor ++ [16, 24, 32, 40, 48].flatMap (fun o => natBytes 8 (w o))

/-- A share of a launch starts on this module (R90, R95, R234): its spill area is taken, or it is refused. -/
def shareStart (s : State) (n : Nat) (x : Launch) : Option (Nat × State) :=
  if spillPages x > freePages s n then none
  else
    let id := (partOf s n).nextLaunch
    some (id, modPart s n (fun p => { p with
      launches := tabSet {} p.launches id x
      nextLaunch := id + 1
      carve := { p.carve with extra := p.carve.extra + spillPages x } }))

/-- A launch by the front (R93, R218, R234): the status that refuses it, or the state in which it runs. -/
def launchStart (s : State) (n : Nat) (w : Nat → Nat) (who : LaunchFor) : Except Nat State :=
  let vd := (partOf s n).vd
  let x := launchOfWords vd w who
  if x.gx * x.gy * x.gz > 2 ^ 31 || x.progLen = 0 || x.progLen > 8192 then .error sBadPacket
  else if x.coresident && x.gx * x.gy * x.gz > 16 * totalClusters vd then .error sRefused
  else
    let others := otherMembers s n
    match shareStart s n { x with left := others, unready := others } with
    | none => .error sRefused
    | some (id, s) =>
      let s := others.foldl (fun s m => sendControl s n m id ctlShareStart 0 (shareWords id w who)) s
      .ok (launchSettle s n id)

/-- LAUNCH (R93, R234, R242). -/
def execLaunch (f seq : Nat) (s : State) : Out :=
  match startedCmd s f 2 seq 0x30 with
  | none => .next s
  | some c =>
    if c.moved ≠ 0 then .next s
    else
      let s' := modCmd s f 2 seq (fun d => { d with moved := 1 })
      match launchStart s' f (cmdWord c) { seq := some seq, node := none } with
      | .error st => .next (finish s f 2 seq st 0)
      | .ok s => .next s

/-- A member refused its share, for want of room: the launch stops everywhere on this module and completes with S_REFUSED (R234). -/
def launchRefused (s : State) (n id : Nat) : State :=
  let x := launchOf s n id
  if !x.live then s
  else
    let s := { s with cores := tabMapV (fun _ k => if k.mode != .idle && k.part == n && k.launch == id then freeCore k else k) s.cores }
    let s := modPart s n (fun p => { p with
      launches := tabSet {} p.launches id {}
      saves := p.saves.filter (fun r => r.launch != id)
      carve := { p.carve with extra := p.carve.extra - spillPages x } })
    match x.seq with
    | some q => workDone s n 2 q x.node sRefused 0
    | none => s

-- stored images (R193, R243, R244)

/-- Parameter bytes of an opcode that a node may hold: its packet from byte 16 without the fence block. -/
def nodeParams (opc : Nat) : Option Nat :=
  if opc = 0x30 then some 48 else if opc = 0x40 || opc = 0x41 || opc = 0x42 then some 32 else if opc = 0x51 then some 16 else none

def leAt (bs : List Byte) (i k : Nat) : Nat := bytesNat ((bs.drop i).take k)
def zeroAt (bs : List Byte) (i k : Nat) : Bool := ((bs.drop i).take k).all (· == 0#8)

/-- One node of an image, of index `i` (R243) (DEDUCED, log 131). -/
def nodeOf (i : Nat) (bs : List Byte) : Option (Nat × List Nat × List Byte) :=
  let opc := leAt bs 0 1
  let np := leAt bs 1 1
  let preds := (List.range np).map (fun j => leAt bs (2 + 2 * j) 2)
  match nodeParams opc with
  | none => none
  | some k =>
    if np ≤ 8 && preds.all (fun q => decide (q < i)) && zeroAt bs 18 14 && zeroAt bs (32 + k) (96 - k) then some (opc, preds, (bs.drop 32).take 96) else none

/-- Nodes of an image, from index `i` on. -/
def nodesOf : Nat → List (List Byte) → Option (List (Nat × List Nat × List Byte))
  | _, [] => some []
  | i, b :: bs =>
    match nodeOf i b, nodesOf (i + 1) bs with
    | some x, some l => some (x :: l)
    | _, _ => none

/-- An image that keeps the layout of R243. -/
def imageNodes (image : List Byte) : Option (List (Nat × List Nat × List Byte)) :=
  let count := leAt image 2 2
  if image.length < 64 || leAt image 0 1 ≠ 1 || leAt image 1 1 ≠ 0 || !zeroAt image 4 60 || count < 1 || count > 4096 ||
     image.length ≠ 64 + 128 * count then none
  else nodesOf 0 (pieces 128 (image.drop 64))

/-- Length of a generation block by its counts. -/
def genLength (head : List Byte) : Nat := 64 + 8 * (leAt head 32 1 + leAt head 33 1 + leAt head 34 1)

/-- The words of the list after a block's header. -/
def genEntries (bs : List Byte) (from_ k : Nat) : List Nat := (List.range k).map (fun i => leAt bs (64 + 8 * (from_ + i)) 8)

/-- The fields of a generation block, defaults applied (R193, R244). -/
def genOf (bs : List Byte) : GenBlock :=
  let np := leAt bs 32 1
  let nd := leAt bs 33 1
  { streamsMax := leAt bs 4 2, tokensMax := leAt bs 8 4, prefillChunk := leAt bs 6 2
    pageOrder := if leAt bs 1 1 = 0 then 16 else leAt bs 1 1
    tpp := leAt bs 12 4
    pools := (genEntries bs 0 np).map (· / 4096), domains := (genEntries bs np nd).map (· / 4096), handles := genEntries bs (np + nd) (leAt bs 34 1)
    stepsInflight := leAt bs 3 1, draftLimit := leAt bs 2 1
    age := if leAt bs 16 4 = 0 then 10000 else leAt bs 16 4
    spill := leAt bs 24 8 / 4096, idLimit := leAt bs 20 4 }

/-- No value stands twice. -/
def distinct : List Nat → Bool
  | [] => true
  | x :: l => !l.contains x && distinct l

/-- The range with a given first page. -/
def rangeOfBase (p : Part) (base : Nat) (kind : Nat) : Option Range := p.ranges.find? (fun r => r.base == base && r.kind == kind)

/-- A generation block within R193. -/
def genLegal (p : Part) (bs : List Byte) : Bool :=
  let g := genOf bs
  let rs := g.pools.filterMap (fun b => rangeOfBase p b 1)
  decide (leAt bs 0 1 = 1) && decide (bs.length ≥ genLength bs) && zeroAt bs 35 29 &&
  decide (1 ≤ g.streamsMax) && decide (g.streamsMax ≤ 4096) && decide (1 ≤ g.tokensMax) && decide (g.tokensMax ≤ 65536) &&
  decide (16 ≤ g.prefillChunk) && decide (g.prefillChunk ≤ 8192) && decide (14 ≤ g.pageOrder) && decide (g.pageOrder ≤ 20) &&
  decide (1 ≤ g.tpp) && decide (g.tpp ≤ 65536) && decide (1 ≤ g.pools.length) && decide (g.pools.length ≤ 16) &&
  decide (g.domains.length ≤ 64) && decide (g.handles.length ≤ 64) && decide (1 ≤ g.stepsInflight) && decide (g.stepsInflight ≤ 32) &&
  decide (g.draftLimit ≤ 16) && decide (100 ≤ g.age) && decide (g.age ≤ 1000000) && decide (1 ≤ g.idLimit) && decide (g.idLimit ≤ 262144) &&
  decide (leAt bs 24 8 % 4096 = 0) && (g.spill == 0 || (rangeOfBase p g.spill 2).isSome) &&
  (genEntries bs 0 (g.pools.length + g.domains.length)).all (fun v => decide (v % 4096 = 0) && decide (v < 2 ^ 52)) &&
  decide (g.prefillChunk ≤ g.tokensMax) && decide (g.draftLimit + 1 ≤ g.tokensMax) &&
  (g.pools ++ g.domains).all (fun b => (rangeOfBase p b 1).isSome) && (rs.head?.elim false (·.pool)) &&
  rs.all (fun r => r.len == (rs.head?.elim 0 (·.len))) && distinct (rs.map (·.modId)) && distinct (g.pools ++ g.domains) && distinct g.handles &&
  g.handles.all (fun h => (tabGet {} p.colls h).registered)

/-- A pool or domain range already belongs to the domain of another stored graph (R193). -/
def genTaken (p : Part) (g : GenBlock) (h : Nat) : Bool := (g.pools ++ g.domains).any (fun b => (domainGraphs p b).any (· != h))

/-- The stream table placed when the first generation graph is stored (R188). -/
def placeTable (s : State) (n : Nat) (g : GenBlock) : Option State :=
  if (partOf s n).str.tablePlaced then some s
  else
    let pages := (128 * g.idLimit + 4095) / 4096
    if pages > freePages s n then none
    else (takeArea s n 2 pages).map (fun s => modStr s n (fun t => { t with tablePlaced := true }))

/-- What the block of a graph comes to: a status that refuses it, or the state with its stream table. -/
def genCheck (s : State) (n h : Nat) (bs : List Byte) : Except Nat State :=
  if !genLegal (partOf s n) bs then .error sBadPacket
  else if genTaken (partOf s n) (genOf bs) h then .error sRefused
  else match placeTable s n (genOf bs) with | some s => .ok s | none => .error sRefused

/-- The lowest free graph handle (R243; which is given is not architectural, log 12). -/
def freeGraph (p : Part) : Option Nat := ((List.range 1024).map (· + 1)).find? (fun h => (tabGet {} p.graphs h).versions == [])

/-- A graph stored at version 0. -/
def storeGraph (s : State) (n : Nat) (nodes : List (Nat × List Nat × List Byte)) (gen : Option (List Byte)) : Except Nat (Nat × State) :=
  match freeGraph (partOf s n) with
  | none => .error sRefused
  | some h =>
    let v : GVersion := { ver := 0, opcs := nodes.map (·.1), preds := nodes.map (·.2.1), params := nodes.map (·.2.2), gen := gen.map genOf, genBytes := gen.getD [] }
    let put (s : State) : Nat × State := (h, modPart s n (fun p => { p with graphs := tabSet {} p.graphs h { versions := [v] } }))
    match gen with
    | none => .ok (put s)
    | some b => match genCheck s n h b with | .ok s => .ok (put s) | .error st => .error st

/-- A read by the processor that serves Q0, through its dispatch engine, for the command with number `seq`. -/
def controlRead (s : State) (n seq va len : Nat) (ext : List Byte) : State × ReadRes :=
  engineRead s (.dispatch (homeDispatch s n)) (1040 + homeDispatch s n, seq) n va len ext

/-- A read that a Q0 command needs did not succeed: it waits, or the command and its context are lost (R109, R242). -/
def controlFails (s : State) (f n seq va : Nat) (r : ReadRes) : State :=
  if r = .wait then s
  else engineFails (if f < 64 then s else finish s f 0 seq (readStatus r) 0) n (if f < 64 then some (0, seq) else none) (homeDispatch s n) va r

/-- A graph's page numbers in reserve go back to the allocator of its primary pool (R200). -/
def dropReserve (s : State) (n h : Nat) : State :=
  match (tabGet {} (partOf s n).graphs h).versions.getLast?.bind (·.gen) with
  | none => s
  | some g =>
    let b := g.pools.headD 0
    let s := modPool s n b (fun x => { x with blocks := (tabGet [] (partOf s n).str.freePages h).foldl (fun t p => tabSet 0 t (b * 4096 + p * 2 ^ g.pageOrder) 0) x.blocks })
    modStr s n (fun t => { t with freePages := tabSet [] t.freePages h [] })

/-- The pools and the page layout change (R194). -/
def genMoves (a b : GenBlock) : Bool := a.pageOrder != b.pageOrder || a.tpp != b.tpp || a.pools != b.pools

-- copies of a stored graph on the other members (R187, R204)

/-- A node as it travels: as an image has it, with what patches have made of its parameters (R243; DESIGN CHOICE, log 33). -/
def nodeBytes (x : Nat × List Nat × List Byte) : List Byte :=
  let head := natBytes 1 x.1 ++ natBytes 1 x.2.1.length ++ x.2.1.flatMap (natBytes 2)
  head ++ List.replicate (32 - head.length) 0#8 ++ x.2.2
def nodeIn (bs : List Byte) : Nat × List Nat × List Byte :=
  (leAt bs 0 1, (List.range (leAt bs 1 1)).map (fun j => leAt bs (2 + 2 * j) 2), (bs.drop 32).take 96)

/-- A graph version as it travels: its number, its nodes counted, its generation block. -/
def versionBytes (v : GVersion) : List Byte :=
  natBytes 8 v.ver ++ natBytes 8 v.opcs.length ++ natBytes 8 (b2n v.gen.isSome) ++
  (v.opcs.zip (v.preds.zip v.params)).flatMap nodeBytes ++ v.genBytes
def versionIn (bs : List Byte) : GVersion :=
  let k := leAt bs 8 8
  let nodes := (pieces 128 ((bs.drop 24).take (128 * k))).map nodeIn
  let b := bs.drop (24 + 128 * k)
  { ver := leAt bs 0 8, opcs := nodes.map (·.1), preds := nodes.map (·.2.1), params := nodes.map (·.2.2)
    gen := if leAt bs 16 8 = 1 then some (genOf b) else none, genBytes := b }

/-- One member is sent a graph's newest version. -/
def sendGraph (n h : Nat) (s : State) (m : Nat) : State :=
  match (tabGet {} (partOf s n).graphs h).versions.getLast? with
  | none => s
  | some v => sendControl s n m 0 ctlGraph h (versionBytes v)
/-- Every other member is. -/
def tellGraph (s : State) (n h : Nat) : State := (otherMembers s n).foldl (sendGraph n h) s

/-- A version of a graph that the front has stored or patched: this member's own copy, with its stream table if it is the first generation graph here
(R188). -/
def graphTold (s : State) (n h : Nat) (v : GVersion) : State :=
  let s := match v.gen with | some g => (placeTable s n g).getD s | none => s
  let old := (tabGet {} (partOf s n).graphs h).versions.getLast?.bind (·.gen)
  let s := match old, v.gen with | some a, some b => if genMoves a b then dropReserve s n h else s | _, _ => s
  let s := modPart s n (fun p => { p with graphs := tabMod {} p.graphs h (fun g => { versions := g.versions.filter (fun x => x.ver != v.ver) ++ [v] }) })
  pruneGraph s n h

/-- GRAPH_STORE (R188, R193, R243, R244): `image` and `genBlock` hold what memory outside the module returns. -/
def execGraphStore (f seq : Nat) (image genBlock : List Byte) (s : State) : Out :=
  match startedCmd s f 0 seq 0x10 with
  | none => .next s
  | some c => match targetPart s f c with
    | none => .next (finish s f 0 seq sAborted 0)
    | some n =>
      let ga := cmdWord c 32
      match controlRead s n seq (cmdWord c 16) (cmdWord c 24) image with
      | (s, .ok im) => (match imageNodes im with
        | none => .next (finish s f 0 seq sBadPacket 0)
        | some nodes =>
          let store (s : State) (gen : Option (List Byte)) : Out := match storeGraph s n nodes gen with
            | .error st => .next (finish s f 0 seq st 0)
            | .ok (h, s) => .next (finish (tellGraph s n h) f 0 seq sOk h)
          if ga = 0 then store s none
          else match controlRead s n seq ga 64 genBlock with
            | (s, .ok head) => (match controlRead s n seq ga (genLength head) genBlock with
              | (s, .ok b) => store s (some b)
              | (s, r) => .next (controlFails s f n seq ga r))
            | (s, r) => .next (controlFails s f n seq ga r))
      | (s, r) => .next (controlFails s f n seq (cmdWord c 16) r)

-- patches (R194, R245)

/-- Bytes replaced at an offset. -/
def patchBytes (bs : List Byte) (off : Nat) (v : List Byte) : List Byte := bs.take off ++ v ++ bs.drop (off + v.length)

/-- One entry applied to a version; `none` when it is malformed (R245). -/
def patchOne (v : GVersion) (e : List Byte) : Option GVersion :=
  let node := leAt e 0 2
  let off := leAt e 2 2
  let val := e.drop 8
  if off % 8 ≠ 0 || !zeroAt e 4 4 then none
  else if node = 0xFFFF then
    (if v.gen.isNone || off + 8 > v.genBytes.length then none else some { v with genBytes := patchBytes v.genBytes off val })
  else match nodeParams (v.opcs.getD node 0) with
    | none => none
    | some _ => if node ≥ v.opcs.length || off + 8 > 96 then none
      else some { v with params := v.params.set node (patchBytes (v.params.getD node []) off val) }

def patchAll : GVersion → List (List Byte) → Option GVersion
  | v, [] => some v
  | v, e :: es => match patchOne v e with | some v => patchAll v es | none => none

/-- Some stream of the graph is not FREE, on this module or as the front knows of those on another (R194). -/
def graphStreams (p : Part) (h : Nat) : Bool :=
  p.str.streams.any (fun x => x.2.state != .free && x.2.graph == h) || p.str.away.any (fun x => x.2.2 == h)

/-- A patch of a graph: the refusing status, or the new version's number and the state. -/
def patchGraph (s : State) (n h : Nat) (entries : List (List Byte)) : Except Nat (Nat × State) :=
  let g := tabGet {} (partOf s n).graphs h
  match g.versions.getLast? with
  | none => .error sRefused
  | some v =>
    match patchAll v entries with
    | none => .error sBadPacket
    | some nv =>
      let ver := (v.ver + 1) % 4096
      let fin (s : State) (nv : GVersion) : Except Nat (Nat × State) :=
        if g.versions.any (fun x => x.ver == ver) then .error sRefused
        else
          let s := modPart s n (fun p => { p with graphs := tabSet {} p.graphs h { versions := g.versions ++ [{ nv with ver }] } })
          .ok (ver, pruneGraph s n h)
      match v.gen with
      | none => fin s nv
      | some old =>
        if !entries.any (fun e => leAt e 0 2 == 0xFFFF) then fin s nv
        else match genCheck s n h nv.genBytes with
          | .error st => .error st
          | .ok s =>
            let moves := genMoves old (genOf nv.genBytes)
            if moves && graphStreams (partOf s n) h then .error sRefused
            else fin (if moves then dropReserve s n h else s) { nv with gen := some (genOf nv.genBytes) }

/-- GRAPH_PATCH (R194, R245). -/
def execGraphPatch (f seq : Nat) (patch : List Byte) (s : State) : Out :=
  match startedCmd s f 0 seq 0x11 with
  | none => .next s
  | some c => match targetPart s f c with
    | none => .next (finish s f 0 seq sAborted 0)
    | some n =>
      let h := cmdWord c 16
      if (tabGet {} (partOf s n).graphs h).versions = [] then .next (finish s f 0 seq sRefused 0)
      else match controlRead s n seq (cmdWord c 24) (16 * cmdWord c 32) patch with
        | (s, .ok b) => (match patchGraph s n h (pieces 16 b) with
          | .error st => .next (finish s f 0 seq st 0)
          | .ok (v, s) => .next (finish (tellGraph s n h) f 0 seq sOk v))
        | (s, r) => .next (controlFails s f n seq (cmdWord c 24) r)

/-- A graph gone from this module. -/
def forgetGraph (s : State) (n h : Nat) : State := modPart (dropReserve s n h) n (fun p => { p with graphs := tabSet {} p.graphs h {} })

/-- GRAPH_DESTROY (R194, R245): refused while a launch runs or a stream pins a version. -/
def execGraphDestroy (f seq : Nat) (s : State) : Out :=
  pfCommandG s f seq (fun c n =>
    let h := cmdWord c 16
    let p := partOf s n
    if (tabGet {} p.graphs h).versions = [] || graphStreams p h || graphRuns p h then finish s f 0 seq sRefused 0
    else
      let s := (otherMembers s n).foldl (fun s m => sendControl s n m 0 ctlGraphGone h []) (forgetGraph s n h)
      finish s f 0 seq sOk 0)
where
  pfCommandG (s : State) (f seq : Nat) (body : Cmd → Nat → State) : Out :=
    match startedCmd s f 0 seq 0x12 with
    | none => .next s
    | some c => match targetPart s f c with
      | none => .next (finish s f 0 seq sAborted 0)
      | some n => .next (body c n)

-- runs (R243)

/-- GRAPH_LAUNCH (R243–R245): the newest version is pinned; a graph with a generation block is refused. -/
def execGraphLaunch (f seq : Nat) (s : State) : Out :=
  match startedCmd s f 2 seq 0x31 with
  | none => .next s
  | some c =>
    if c.moved ≠ 0 then .next s
    else match (tabGet {} (partOf s f).graphs (cmdWord c 16)).versions.getLast? with
      | none => .next (finish s f 2 seq sRefused 0)
      | some v =>
        if v.gen.isSome then .next (finish s f 2 seq sRefused 0)
        else .next (modCmd s f 2 seq (fun d => { d with moved := 1, gver := v.ver }))

/-- Parameter words of a node by packet byte; a GRAPH_LAUNCH that gives an argument block gives it to every LAUNCH node (DEDUCED, log 45). -/
def launchWord (s : State) (f seq : Nat) (opc : Nat) (params : List Byte) (off : Nat) : Nat :=
  let w := paramWord params off
  match (if seq < 2 ^ 32 then findCmd s f 2 seq else none) with
  | none => w
  | some c =>
    if opc ≠ 0x30 || cmdWord c 32 = 0 then w
    else if off = 32 then w % 2 ^ 32 + bits w 63 45 * 2 ^ 45 + cmdWord c 32 * 2 ^ 32
    else if off = 40 then cmdWord c 24 else w

/-- The parameters of a node keep the reserved bits and ranges of their opcode (R229, R233). -/
def nodeLegal (opc : Nat) (params : List Byte) : Bool :=
  match opRow opc with
  | none => false
  | some row =>
    (List.range 12).all (fun i => within (row.masks.getD i 0) (leAt params (8 * i) 8)) &&
    fieldsOk (BitVec.ofNat 64 opc :: 0 :: (List.range 12).map (fun i => BitVec.ofNat 64 (leAt params (8 * i) 8)))

/-- One segment of a copy engine's node, of `moved` and `len` bytes or elements. -/
def copyRun (s : State) (n seq : Nat) (opc : Nat) (w : Nat → Nat) (moved len : Nat) (ext : List Byte) : Moved :=
  let e := copyEngine s n
  if opc = 0x40 then copySegment s n e seq (w 16) (w 24) len (bits (w 32) 39 0) moved ext
  else if opc = 0x41 then copyWrite s n e seq (w 16 + moved) (patternBytes (w 24) len)
  else convertRun s n seq w moved len ext

/-- A copy engine's node goes on by one segment, or comes to an end (R248). -/
def copyNode (s : State) (f seq node opc : Nat) (w : Nat → Nat) (moved : Nat) (ext : List Byte) : State :=
  let cmd : Option (Nat × Nat) := if seq < 2 ^ 32 then some (2, seq) else none
  let total := if opc = 0x42 then bits (w 32) 31 0 else bits (w 32) 39 0
  let len := Nat.min (if opc = 0x42 then convertSegment w else segmentBytes) (total - moved)
  match copyRun s f seq opc w moved len ext with
  | .wait s => s
  | .fails s va r => engineFails s f cmd (4 + copyEngine s f) va r
  | .done s =>
    if moved + len ≥ total then nodeDone s f seq node sOk
    else match runOf s f seq with
      | none => s
      | some (_, nodes, running) => setRun s f seq nodes (running.map (fun x => if x.1 = node then (node, moved + len) else x))

/-- The step descriptor's address of a run, and its graph, for a run of the stream sequencer. -/
def stepOfRun (s : State) (f seq : Nat) : Nat × Nat :=
  if seq < 2 ^ 32 then (0, 0)
  else match (partOf s f).str.steps.find? (fun x => x.1 == seq - 2 ^ 32) with
    | some x => (x.2.graph, x.2.descriptor)
    | none => (0, 0)

/-- One node of a run started, or one of a copy engine continued where it stands. -/
def nodeStart (s : State) (f seq node opc moved : Nat) (params ext : List Byte) : State :=
  let w := launchWord s f seq opc params
  if !nodeLegal opc params then nodeDone s f seq node sBadPacket
  else if opc = 0x30 then
    let g := stepOfRun s f seq
    (match launchStart s f w { seq := some seq, node := some node, graph := g.1, descriptor := g.2 } with
     | .error st => nodeDone s f seq node st
     | .ok s => s)
  else if opc = 0x51 then
    let h := bits (w 16) 11 0
    let e := bits (w 16) 63 32
    if !invokeOk (collOf s f h) e then nodeDone s f seq node sRefused
    else (match invokeColl s f h e (seq, some node) with | some s => s | none => s)
  else if opc = 0x42 && !convertLegal w then nodeDone s f seq node sBadPacket
  else copyNode s f seq node opc w moved ext

/-- GRAPH_NODE_START (R243, R248): a node starts when all its predecessors have completed; a copy engine's node goes on by a segment. `seq` is the GRAPH_LAUNCH's SEQ, or 2^32 plus the number
of a step; `ext` holds what memory outside the module returns for a copy node. -/
def execGraphNodeStart (f seq node : Nat) (ext : List Byte) (s : State) : Out :=
  match runOf s f seq with
  | none => .next s
  | some (v, nodes, running) =>
    let finished (q : Nat) : Bool := nodes.any (fun d => d.1 == q)
    let idle := node < v.opcs.length && !finished node
    let begun := running.any (fun x => x.1 == node)
    let again := decide (0x40 ≤ v.opcs.getD node 0) && decide (v.opcs.getD node 0 ≤ 0x51)
    if !idle || (begun && !again) || !(v.preds.getD node []).all finished then .next s
    else if (begun && (partOf s f).colls.any (fun x => x.2.cmd == some (seq, some node))) then .next s
    else
      let moved := ((running.find? (fun x => x.1 == node)).map (·.2)).getD 0
      let s := setRun s f seq nodes (if begun then running else running ++ [(node, 0)])
      .next (nodeStart s f seq node (v.opcs.getD node 0) moved (v.params.getD node []) ext)

end Sys2Proof.Machine
end

