-- ==== Sys2Proof/Machine/Journal.lean ====
section
/-! DEFINITION. Journals: entries, their sizes and what supersedes them, mirroring to the partner, the store (R275–R280, R343, R344). -/

namespace Sys2Proof.Machine

/-- Entry types (R277). -/
abbrev jOpen : Nat := 1
abbrev jAppend : Nat := 2
abbrev jPause : Nat := 3
abbrev jResume : Nat := 4
abbrev jCancel : Nat := 5
abbrev jClose : Nat := 6
abbrev jDelivery : Nat := 7

/-- Body units of 64 bytes (R277). -/
def itemUnits (it : JournalItem) : Nat := (it.body.length + 7) / 8

/-- Bytes an entry takes: header and body, and the reserve of an OPEN (R277, R278). -/
def itemSize (it : JournalItem) : Nat := 64 + 64 * itemUnits it + (if it.typ = jOpen then 256 else 0)

/-- The bytes of an entry (R277). -/
def itemBytes (it : JournalItem) : List Byte :=
  let head := natBytes 8 (2 ^ 60 + it.typ * 2 ^ 56 + itemUnits it * 2 ^ 40 + it.vdid) ++ natBytes 8 it.jseq ++
    natBytes 8 (it.edition * 2 ^ 32 + it.stream) ++ natBytes 8 it.owner ++ natBytes 8 it.reqTag.toNat ++ natBytes 8 it.seq ++ natBytes 8 (b2n it.durable)
  let body := (it.body ++ List.replicate (8 * itemUnits it - it.body.length) 0#64).flatMap (fun w => natBytes 8 w.toNat)
  head ++ natBytes 4 (crc32c (head ++ body)) ++ natBytes 4 0 ++ body

/-- An entry read from its bytes; `none` when its version is not 1 or its CRC does not match (R13, R277). -/
def itemOf (bs : List Byte) : Option JournalItem :=
  let units := bits (leAt bs 0 8) 55 40
  let body := (bs.drop 64).take (64 * units)
  if bits (leAt bs 0 8) 63 60 ≠ 1 || leAt bs 56 4 ≠ crc32c (bs.take 56 ++ body) || bs.length < 64 + 64 * units then none
  else
    some { typ := bits (leAt bs 0 8) 59 56, vdid := bits (leAt bs 0 8) 23 0, jseq := leAt bs 8 8, edition := leAt bs 20 4, stream := bits (leAt bs 16 4) 19 0
           owner := bits (leAt bs 24 4) 19 0, reqTag := BitVec.ofNat 64 (leAt bs 32 8), seq := bits (leAt bs 40 8) 47 0, durable := bitOf (leAt bs 48 8) 0
           body := (pieces 8 body).map (fun b => BitVec.ofNat 64 (bytesNat b)) }

/-- The streams that a DELIVERY entry covers, with SEQ and DIGEST (R277). -/
def deliveryStreams (it : JournalItem) : List (Nat × Nat × BitVec 64) :=
  ((pieces 3 ((it.body.drop 3).take (3 * (it.body.getD 2 0).toNat))).map (fun w => ((w.getD 0 0).toNat, (w.getD 1 0).toNat, w.getD 2 0)))

/-- Whether an entry of a journal is reclaimed when `it` is added (R278): the newest PAUSE or RESUME, the newest delivery of each stream, and
nothing of a stream that CLOSE ends; an entry sent again takes the place of the one with its number (DEDUCED, log 129). -/
def supersedes (it x : JournalItem) : Bool :=
  x.vdid == it.vdid &&
  (if x.owner = it.owner && x.jseq = it.jseq then true
   else if it.typ = jClose then x.stream == it.stream && x.typ != jDelivery
   else if it.typ = jPause || it.typ = jResume then x.stream == it.stream && (x.typ == jPause || x.typ == jResume)
   else it.typ == jDelivery && x.typ == jDelivery && (deliveryStreams x).all (fun y => (deliveryStreams it).any (fun z => z.1 == y.1)) &&
     x.body.headD 0 == it.body.headD 0)

/-- A journal with an entry added; a CLOSE leaves nothing of its stream. -/
def journalAdd (l : List JournalItem) (it : JournalItem) : List JournalItem :=
  let l := l.filter (fun x => !supersedes it x)
  if it.typ = jClose then l else l ++ [it]

/-- Bytes of the home half and of the mirror half in use (R275, R278). -/
def halfBytes : Nat := 2 ^ 31
def homeUsed (s : State) : Nat :=
  (s.parts.map (fun p => ((p.2.journal.home ++ p.2.journal.waiting.map (·.item)).map itemSize).sum)).sum
def mirrorUsed (s : State) : Nat := (s.atl.mirror.map itemSize).sum

-- the store (R279, R344)

/-- A register of GLB_STORE by handle and index. -/
def storeReg (s : State) (handle i : Nat) : Nat := (tabGet 0 s.glb.store (8 * (handle - 1) + i)).toNat

/-- A Write command for an entry submitted to a store, and its doorbell. The command's own layout is NVMe's, outside the spec: its bytes are free
(DESIGN CHOICE, log 10). -/
def storeSubmit (s : State) (handle : Nat) : State :=
  let (d, s) := draw s
  let t := tabGet 0 s.glb.storeTail handle
  let size := 2 ^ (storeReg s handle 0 % 16 + 4)
  let s := hostBulk s 64 (storeReg s handle 0 / 4096 * 4096 + 64 * (t % size)) ((List.range 64).map (Config.freeByte d))
  let s := { s with glb := { s.glb with storeTail := tabSet 0 s.glb.storeTail handle (t + 1) } }
  hostControl s 64 (storeReg s handle 2) (natBytes 4 ((t + 1) % size))

/-- A completion of a store read: the head doorbell moves (R344). -/
def storeReap (s : State) (handle : Nat) : State :=
  let h := tabGet 0 s.glb.storeHead handle + 1
  let size := 2 ^ (storeReg s handle 0 % 16 + 4)
  let s := { s with glb := { s.glb with storeHead := tabSet 0 s.glb.storeHead handle h } }
  hostControl s 64 (storeReg s handle 3) (natBytes 4 (h % size))

-- mirroring (R276)

/-- An entry sent to the partition's journal partner. -/
def sendMirror (s : State) (n : Nat) (it : JournalItem) : State := sendAtlas s (partOf s n).vd.partner atlMirror n (itemBytes it)

/-- An entry of a partition begins its way into the journals; a command of `func` with number `cmdSeq` waits for it. -/
def journalise (s : State) (n func cmdSeq : Nat) (needStore : Bool) (it : JournalItem) : State :=
  let p := partOf s n
  let it := { it with vdid := p.vd.vdid, jseq := p.journal.nextJseq, edition := p.vd.edition, owner := s.glb.moduleId }
  let w : Pending := { jseq := it.jseq, cmdSeq, func, mirrored := !p.vd.partnerValid, stored := false, needStore, item := it }
  let s := modPart s n (fun p => { p with journal := { p.journal with nextJseq := it.jseq + 1, waiting := p.journal.waiting ++ [w] } })
  let s := if p.vd.partnerValid then sendMirror s n it else s
  if needStore then storeSubmit s p.vd.store else s

/-- An entry is held in every journal that must hold it (R276, R279). -/
def entryHeld (w : Pending) : Bool := w.mirrored && (!w.needStore || w.stored)

/-- JOURNAL_MIRROR (R275, R276, R278): this module, as partner, takes an entry into its mirror half and answers the owner; an entry without room
is turned away. -/
def execJournalMirror (item : JournalItem) (s : State) : Out :=
  let fits := mirrorUsed s + itemSize item ≤ halfBytes || (item.typ ≠ jOpen && item.typ ≠ jAppend)
  let s := if fits then { s with atl := { s.atl with mirror := journalAdd s.atl.mirror item } } else s
  .next (sendAtlas s item.owner atlMirrorAck (b2n fits) (natBytes 8 item.vdid ++ natBytes 8 item.jseq))

end Sys2Proof.Machine
end

