-- ==== Sys2Proof/Machine/RangeTable.lean ====
section
/-! DEFINITION. The range table: its entries, their copies on the members, ranges mapped and withdrawn, and the transfers that hold a translation or wait for
one (R106, R155, R157, R159, R162, R165–R169, R173, R177, R178, R181, R182). -/

namespace Sys2Proof.Machine

-- transfers of tasks

/-- A change of the transfer with the given issuing core and number, in the core that now runs its task or in its save record (R106). -/
def modXfer (s : State) (c k : Nat) (f : Xfer → Xfer) : State :=
  let g (l : List Xfer) : List Xfer := l.map (fun x => if x.origin = c && x.xid = k then f x else x)
  let fp (p : Part) : Part := { p with saves := p.saves.map (fun r => { r with core := { r.core with xfers := g r.core.xfers } }) }
  { s with cores := tabMapV (fun _ x => { x with xfers := g x.xfers }) s.cores, parts := tabMapV (fun _ p => fp p) s.parts }

/-- Where a transfer is held: a core, or the save record of a task of a partition. -/
inductive Holder where
  | core (c : Nat)
  | save (n : Nat) (r : SaveRec)
  | gone
  deriving DecidableEq, Repr

/-- The holder of a transfer, with the list it stands in. -/
def holderOf (s : State) (c k : Nat) : Holder :=
  let here (l : List Xfer) : Bool := l.any (fun x => x.origin == c && x.xid == k)
  match (tabKeys (fun _ x => here x.xfers) s.cores).head? with
  | some d => .core d
  | none =>
    match s.parts.findSome? (fun x => (x.2.saves.find? (fun r => here r.core.xfers)).map (fun r => (x.1, r))) with
    | some (n, r) => .save n r
    | none => .gone
def holderCore (s : State) : Holder → Core
  | .core d => coreOf s d
  | .save _ r => r.core
  | .gone => {}
def xferOf (s : State) (c k : Nat) : Option Xfer :=
  (holderCore s (holderOf s c k)).xfers.find? (fun x => x.origin == c && x.xid == k)

/-- Two spans of device virtual addresses overlap. -/
def spansMeet (a la b lb : Nat) : Bool := decide (a < b + lb) && decide (b < a + la)

/-- Transfers of a partition's tasks, in cores and in save records. -/
def xfersOf (s : State) (n : Nat) : List Xfer :=
  (s.cores.filter (fun k => k.2.mode != .idle && k.2.part == n)).flatMap (fun k => k.2.xfers) ++ (partOf s n).saves.flatMap (fun r => r.core.xfers)

-- range entries (R157, R159)

/-- A target slot from its 16 bits. -/
def slotOf (v : Nat) : Nat × Bool × Nat := (b2n (bitOf v 15), bitOf v 14, bits v 8 0)

/-- The range that the eight words of an entry describe. -/
def rangeOf (w : Nat → Nat) : Range :=
  let dev := bits (w 0) 59 58 = 1
  let k := if dev then bits (w 2) 43 40 + 1 else 1
  { kind := bits (w 0) 59 58, r := bitOf (w 0) 57, w := bitOf (w 0) 56, shared := bitOf (w 0) 55, pool := bitOf (w 0) 54
    base := bits (w 0) 51 12, len := bits (w 1) 39 0
    modId := if dev then bits (w 2) 63 44 else 0, n := k, unit := if dev then bits (w 2) 39 36 else 0, offset := if dev then bits (w 2) 19 0 else 0
    backing := if dev then bits (w 3) 63 62 else 0, backAddr := if dev then bits (w 3) 61 0 else 0
    targets := if dev then (List.range k).map (fun i => slotOf (bits (w (4 + i / 4)) (16 * (i % 4) + 15) (16 * (i % 4)))) else []
    hostBase := if dev then 0 else bits (w 2) 63 12 * 4096, pv := !dev && bitOf (w 3) 20, pasid := if dev then 0 else bits (w 3) 19 0
    residence := if bits (w 0) 59 58 = 3 then bits (w 4) 43 16 * 65536 else 0 }

/-- Reserved bits of an entry are zero (R157, R159). `auto` leaves the target fields out (R233). -/
def entryReserved (auto : Bool) (w : Nat → Nat) : Bool :=
  let dev := bits (w 0) 59 58 = 1
  let k := bits (w 2) 43 40 + 1
  decide (bits (w 0) 53 52 = 0) && decide (bits (w 0) 11 0 = 0) && decide (w 1 < 2 ^ 40) &&
  (if dev then
    decide (bits (w 2) 35 20 = 0) &&
    (auto || (List.range 16).all (fun i =>
      let v := bits (w (4 + i / 4)) (16 * (i % 4) + 15) (16 * (i % 4))
      if i < k then bits v 13 9 == 0 else v == 0))
   else
    decide (bits (w 2) 11 0 = 0) && decide (w 3 < 2 ^ 21) &&
    (if bits (w 0) 59 58 = 3 then decide (bits (w 4) 15 0 = 0) && decide (w 4 < 2 ^ 44) else decide (w 4 = 0)) &&
    (List.range 3).all (fun i => decide (w (5 + i) = 0)))

/-- The checks of an entry of any kind (R159): none, or the status. -/
def entryCheck (auto : Bool) (w : Nat → Nat) : Option Nat :=
  let r := rangeOf w
  if bits (w 0) 63 60 ≠ 1 then some sUnsupported
  else if !entryReserved auto w || r.kind = 0 || r.len = 0 || r.base + r.len > 2 ^ 40 || r.base < 16 || (r.shared && r.w) || r.unit > 8 ||
    (!auto && r.targets.any (fun t => t.2.1)) then some sBadPacket
  else none

/-- A target belongs to the partition: a memory slice, or a scratchpad granule (R159). -/
def ownsTarget (s : State) (n : Nat) (t : Nat × Bool × Nat) : Bool :=
  if t.1 = 0 then (memSlices s n).contains t.2.2 else (scratchGranules s n).contains t.2.2

/-- No target appears twice. -/
def distinctTargets : List (Nat × Bool × Nat) → Bool
  | [] => true
  | t :: ts => !ts.any (fun u => u.1 == t.1 && u.2.2 == t.2.2) && distinctTargets ts

/-- A DEVICE range is well formed (R159). Targets on another module are that module's to check. -/
def deviceOk (s : State) (n : Nat) (r : Range) : Bool :=
  let here := r.modId == s.glb.moduleId
  decide (r.len % (r.n * 2 ^ r.unit) = 0) && (!here || r.targets.all (ownsTarget s n)) && distinctTargets r.targets &&
  r.targets.all (fun t => decide (r.offset + r.len / r.n ≤ targetPages t.1))

/-- The module that an entry names holds a partition of the virtual device. -/
def memberModule (s : State) (n mid : Nat) : Bool := (partOf s n).vd.members.any (fun m => m.modId == mid)

def rangesMeet (a b : Range) : Bool := decide (a.base < b.base + b.len) && decide (b.base < a.base + a.len)

def rangeWords (r : Range) : List W64 :=
  let slot (i : Nat) : Nat := match r.targets[i]? with | some t => t.1 * 2 ^ 15 + b2n t.2.1 * 2 ^ 14 + t.2.2 | none => 0
  let tw (j : Nat) : Nat := slot (4 * j) + slot (4 * j + 1) * 2 ^ 16 + slot (4 * j + 2) * 2 ^ 32 + slot (4 * j + 3) * 2 ^ 48
  let head := [2 ^ 60 + r.kind * 2 ^ 58 + b2n r.r * 2 ^ 57 + b2n r.w * 2 ^ 56 + b2n r.shared * 2 ^ 55 + b2n r.pool * 2 ^ 54 + r.base * 2 ^ 12, r.len]
  let tail := if r.kind = 1 then
      [r.modId * 2 ^ 44 + (r.n - 1) * 2 ^ 40 + r.unit * 2 ^ 36 + r.offset, r.backing * 2 ^ 62 + r.backAddr, tw 0, tw 1, tw 2, tw 3]
    else [r.hostBase, b2n r.pv * 2 ^ 20 + r.pasid, r.residence, 0, 0, 0]
  (head ++ tail).map (BitVec.ofNat 64)
def rangeBytes (r : Range) : List Byte := (rangeWords r).flatMap (fun w => natBytes 8 w.toNat)

-- faults held (R167, R168, R182)

/-- A held transfer completes with FAULT (R168): a core's, wherever its task is, is answered so; an engine's command ends with S_FAULT_XLATE, and its
context is lost. -/
def holderFault (n : Nat) (s : State) (h : Nat × Nat) : State :=
  match queueOfUnit h.1 with
  | none => modXfer s h.1 h.2 (fun x => if x.performed then x else { x with answer := some .fault })
  | some q => loseCtx s n sFaultXlate ((findCmd s n q h.2).map (fun c => (q, c.seq))) 0 1 false

/-- A fault of a partition's function on a host page of a range (R166, R182). -/
def faultOn (n : Nat) (r : Range) (x : FaultEntry) : Bool :=
  r.kind != 1 && x.fn == n + 1 && x.pasid == pasidTag r.pv r.pasid && decide (r.hostBase < x.page * 65536 + 65536) && decide (x.page * 65536 < r.hostBase + r.len * 4096)

/-- The transfers that hold for a fault on a range (R182). -/
def heldOn (s : State) (n : Nat) (r : Range) : List (Nat × Nat) := ((s.sur.faultQ ++ s.sur.waiting).filter (faultOn n r)).flatMap (·.holders)

/-- Held transfers of a range that has been withdrawn complete with FAULT; a page request that has been sent stays outstanding (R182) (DEDUCED, log 123). -/
def dropHeld (s : State) (n : Nat) (r : Range) : State :=
  let hs := heldOn s n r
  if hs = [] then s
  else hs.foldl (holderFault n) { s with sur := { s.sur with
    faultQ := s.sur.faultQ.map (fun x => if faultOn n r x then { x with holders := [] } else x)
    waiting := s.sur.waiting.filter (fun x => !faultOn n r x) } }

-- ranges withdrawn (R181, R182)

/-- No transfer that holds an old translation of a range is on its way (R181 step 3). -/
def rangeDrained (s : State) (n : Nat) (r : Range) : Bool :=
  (xfersOf s n).all (fun x => !x.sent || x.parked.isSome || !spansMeet x.va x.len (r.base * 4096) (r.len * 4096))

/-- The module on which a range's extents or residence table lie. -/
def placerOf (s : State) (n : Nat) (r : Range) : Nat :=
  if r.kind = 1 then r.modId else if r.kind = 3 then homeModule (partOf s n) else s.glb.moduleId
def placerHere (s : State) (n : Nat) (r : Range) : Bool := r.kind == 2 || (r.kind == 1 && r.modId == s.glb.moduleId) || (r.kind == 3 && isHomePart (partOf s n))

/-- Moves of a range's slots stop; a REBALANCE that waits for one ends with S_ABORTED (R182 states no status; DESIGN CHOICE, log 160). -/
def stopMoves (s : State) (n base : Nat) : State :=
  let ms := s.sur.moves.filter (fun m => m.n == n && m.base == base)
  let s := { s with sur := { s.sur with moves := s.sur.moves.filter (fun m => !(m.n == n && m.base == base)) } }
  ms.foldl (fun s m => match m.cmd with | some (f, seq) => finish s f 5 seq sAborted 0 | none => s) s

/-- A range leaves the table of this module: every range cache drops it, its moves stop, transfers that hold for a fault on it complete with FAULT, and its
extent is kept till it is freed (R162, R181, R182). `to_` is the module to be told once the transfers that hold its translation have drained. -/
def withdraw (s : State) (n : Nat) (r : Range) (to_ : Option Nat) : State :=
  let s := stopMoves (dropCached s n (fun x => x.base == r.base)) n r.base
  dropHeld (modPart s n (fun p => { p with
    ranges := p.ranges.filter (fun x => x.base != r.base), dying := p.dying ++ [(r, to_)],
    aways := p.aways.filter (fun x => x.base != r.base), coming := p.coming.filter (fun x => x.range.base != r.base) })) n r

/-- A span of a target erased to zero, each page where its redirect entry puts it (R179, R181). -/
def clearTarget (s : State) (pa pages : Nat) : State :=
  (List.range pages).foldl (fun s i => clearSpan s (redirect s (pa + 4096 * i)) 4096) s

/-- The graphs whose primary pool a range is (R193). -/
def primaryOf (p : Part) (base : Nat) : List Nat :=
  tabKeys (fun _ g => g.versions.any (fun v => v.gen.any (fun b => b.pools.headD 0 == base))) p.graphs

/-- A withdrawn range's extent returns to the carve-out, erased first with SCRUB; its device pages, residence table and pool go, and
the page numbers kept from it (R181, R200). -/
def freeRange (s : State) (n : Nat) (r : Range) (scrub : Bool) : State :=
  let s := if scrub && r.kind = 1 && r.modId = s.glb.moduleId then
      r.targets.foldl (fun s t => clearTarget s (targetPa t.1 t.2.2 + r.offset * 4096) (r.len / r.n)) s else s
  let inside (k : Nat) : Bool := r.kind != 1 && decide (r.base ≤ k) && decide (k < r.base + r.len)
  let s := if scrub then ((partOf s n).residence.filter (fun x => inside x.1 && x.2.dev)).foldl (fun s x => clearTarget s x.2.phys 16) s else s
  modPart s n (fun p => { p with
    dying := p.dying.filter (fun x => x.1.base != r.base)
    residence := p.residence.filter (fun x => !inside x.1)
    str := { p.str with freePages := (primaryOf p r.base).foldl (fun t h => tabSet [] t h []) p.str.freePages }
    pools := tabDel p.pools r.base })

-- range commands under way (R162, R181)

/-- The range command under way is complete. -/
def rangeEnd (s : State) (n : Nat) (o : RangeOp) (status : Nat) : State :=
  finish (modPart s n (fun p => { p with rangeOp := none })) o.f o.q o.seq status 0

/-- A range command goes on when every answer it awaits has come (R162, R181): a withdrawn range's extent is freed where it lies once its transfers have
drained everywhere. -/
def rangeStep (s : State) (n : Nat) : State :=
  match (partOf s n).rangeOp with
  | none => s
  | some o =>
    if o.waits ≠ [] then s
    else if o.kind = 1 && o.stage = 1 then
      if placerHere s n o.range then rangeEnd (freeRange s n o.range o.scrub) n o sOk
      else
        let m := placerOf s n o.range
        if !(otherMembers s n).contains m then rangeEnd s n o sOk
        else sendControl (modPart s n (fun p => { p with rangeOp := some { o with stage := 2, waits := [m] } })) n m (b2n o.scrub) ctlRangeFree o.range.base []
    else
      -- the extent that a moved slot has left is free
      let s := if o.kind = 2 then modPart s n (fun p => { p with dying := p.dying.filter (fun x => !(x.1.base == o.range.base && x.2.isNone)) }) else s
      rangeEnd s n o sOk

/-- A module has done its part of the range command under way. -/
def rangeAnswered (s : State) (n mid base : Nat) : State :=
  match (partOf s n).rangeOp with
  | none => s
  | some o =>
    if o.range.base ≠ base then s
    else rangeStep (modPart s n (fun p => { p with rangeOp := some { o with waits := o.waits.filter (· != mid) } })) n

/-- Withdrawn ranges whose transfers have drained: who waits for it is told; a range whose extent lies elsewhere is forgotten (R181 step 3). -/
def settleDying (s : State) (n : Nat) : State :=
  (partOf s n).dying.foldl (fun s x => match x.2 with
    | none => s
    | some mid =>
      if !rangeDrained s n x.1 then s
      else
        let here := placerHere s n x.1
        let left (l : List (Range × Option Nat)) : List (Range × Option Nat) :=
          if here then l.map (fun y => if y.1 = x.1 then (y.1, none) else y) else l.filter (fun y => y.1 != x.1)
        let s := modPart s n (fun p => { p with dying := left p.dying })
        if mid = s.glb.moduleId then rangeAnswered s n mid x.1.base else sendControl s n mid 0 ctlRangeAck x.1.base []) s

/-- A range command begins its stage 1: this module's own part is done, and every other member but `done` is told (R162, R181). -/
def rangeSpread (s : State) (n : Nat) (o : RangeOp) (code : Nat) (done : List Nat) : State :=
  let ms := (otherMembers s n).filter (fun m => !done.contains m)
  let own := if o.kind = 1 then [s.glb.moduleId] else []
  let s := modPart s n (fun p => { p with rangeOp := some { o with stage := 1, waits := ms ++ own } })
  let s := ms.foldl (fun s m => sendControl s n m 0 code o.range.base (if o.kind = 1 then [] else rangeBytes o.range)) s
  if o.kind = 1 then settleDying s n else rangeStep s n

/-- A range added to this module's table. -/
def addHere (s : State) (n : Nat) (r : Range) : State := modPart s n (fun p => { p with ranges := p.ranges ++ [r] })

/-- An entry rewritten in this module's table, where a range that came from another module now stands; every range cache drops the old one (R162, R178). -/
def rewriteHere (s : State) (n : Nat) (r : Range) : State :=
  dropCached (modPart s n (fun p => { p with
    ranges := p.ranges.map (fun x => if x.base = r.base then r else x), coming := p.coming.filter (fun x => x.range.base != r.base) })) n (fun x => x.base == r.base)

/-- The other members' copies of an entry rewritten outside a range command. -/
def tellRange (s : State) (n base : Nat) : State :=
  match (partOf s n).ranges.find? (fun r => r.base == base) with
  | none => s
  | some r => (otherMembers s n).foldl (fun s m => sendControl s n m 0 ctlRangeSet base (rangeBytes r)) s

-- a range placed on this module (R159, R173, R177)

/-- Placement without explicit targets on this module (R177): the status that refuses it, or the range placed. -/
def autoPlace (s : State) (n : Nat) (r : Range) (llm : Bool) (nf : Nat) : Except Nat Range :=
  let typ := b2n llm
  let cand := if llm then scratchGranules s n else placeSlices s n
  let k := if nf = 0 then Nat.min 16 cand.length else nf
  if k = 0 || k > cand.length then .error sRefused
  else if r.len % (k * 2 ^ r.unit) ≠ 0 then .error sBadPacket
  else match chooseExtent s n typ cand k (r.len / k) with
    | none => .error sRefused
    | some (a, ts) => .ok { r with n := k, offset := a, targets := ts.map (fun t => (typ, false, t)) }

/-- Explicit targets meet an extent that is taken (R159). -/
def targetsTaken (s : State) (n : Nat) (r : Range) : Bool :=
  r.targets.any (fun t => (meets (takenOn s n t.1 t.2.2) r.offset (r.len / r.n)).isSome)

/-- The checks and the placement that belong to the module on which a range lies: `opt` is the OPTIONS word of RANGE_MAP (R159, R173, R177, R233). -/
def placeRange (s : State) (n : Nat) (r : Range) (opt : Nat) : Except Nat Range :=
  if r.kind = 1 then
    if bitOf opt 0 then
      (match autoPlace s n r (bitOf opt 1) (bits opt 6 2) with
       | .error e => .error e
       | .ok r => if rangePages s n r > freePages s n then .error sRefused else .ok r)
    else if !r.targets.all (ownsTarget s n) then .error sBadPacket
    else if rangePages s n r > freePages s n || targetsTaken s n r then .error sRefused
    else .ok r
  else if r.kind = 3 then
    if rangePages s n r > freePages s n then .error sRefused
    else match tablePlace s n (placeSlices s n) r with | some a => .ok { r with residence := a } | none => .error sRefused
  else .ok r

end Sys2Proof.Machine
end

