-- ==== Sys2Proof/Machine/Request.lean ====
section
/-! DEFINITION. Requests at their memories and the responses to them: PUT, GET, bulk writes and reads, COLLIDE and its retry (R102–R106, R109, R118–R123, R141, R175, R308, R349). -/

namespace Sys2Proof.Machine

-- the operation a request belongs to

/-- An earlier transfer of the same core holds a later one back: it overlaps and has not taken effect (R103), or it backs off from a
COLLIDE on one of the later one's 128-byte lines (R109). -/
def heldBack (k : Core) (x : Xfer) : Bool :=
  (k.xfers.takeWhile (fun y => !(y.origin == x.origin && y.xid == x.xid))).any (fun y =>
    (!y.performed && spansMeet y.va y.len x.va x.len) ||
    (x.write && y.todo.any (fun w => spansMeet (w / 2 * 128) 128 (x.va / 128 * 128) (x.len + x.va % 128))))

/-- The first transfer of a core's task that matches a request and can be performed now. -/
def readyXfer (s : State) (c : Nat) (write : Bool) (va : Nat) (ok : Xfer → Bool) : Option Xfer :=
  let k := coreOf s c
  (k.xfers ++ (s.parts.flatMap (fun x => x.2.saves.flatMap (fun r => r.core.xfers.filter (fun y => y.origin == c))))).find? (fun x =>
    x.write == write && x.va == va && ok x && !x.performed && !x.sent && x.answer.isNone && x.backoff == 0 && !heldBack (holderCore s (holderOf s c x.xid)) x)

-- answers

/-- The code by which the model names a requester outside the cores in its list of responses (DESIGN CHOICE, log 12). -/
def unitCode : Master → Nat
  | .core c => c
  | .dispatch d => 1024 + d % 4
  | .copy i => 1028 + i
  | .coll i => 1036 + i % 2
  | .ss => 1038
  | .me => 1039
  | .cp d => 1040 + d
  | .mp => 1044
  | .sp => 1045
  | .remote m => 2 ^ 20 + m
  | .host rid _ => 2 ^ 21 + rid

/-- The POOL range whose request port holds an address, on this module (R174). -/
def portRange (s : State) (n va : Nat) : Option Range :=
  match findRange (partOf s n) va with
  | some r => if poolPort r va && r.modId == s.glb.moduleId then some r else none
  | none => none

-- writes

/-- Index of a master in the conflict counters of a cluster's banks (R123); the masters without an index are not counted. -/
def conflictIndex : Master → Option Nat
  | .copy _ => some 16
  | .dispatch _ => some 17
  | .coll _ => some 18
  | .ss => some 19
  | .me => some 20
  | .core _ => some 21
  | .remote _ => some 22
  | .host _ _ => some 23
  | _ => none

/-- Port 1 of a cluster's banks serves the access (R120). -/
def onPort1 (m : Master) (cl : Nat) : Bool := match m with | .core c => c / 16 != cl | _ => true

/-- One word's collision counted (R121, R123, R416). -/
def countCollide (s : State) (m : Master) (n cl o : Nat) : State :=
  match conflictIndex m with
  | none => s
  | some i =>
    countPart (modCluster s cl (fun x => { x with conflict := tabMod 0 x.conflict ((o / 128) % 16 * 32 + i) (satAdd 0xFFFFFFFF 1) })) n 6 1

/-- The cluster word, cluster and offset, that a 64-byte word of a span lies in, when port 1 serves it. -/
def port1Word (s : State) (m : Master) (n w : Nat) : Option (Nat × Nat) :=
  match translate s n (64 * w) true with
  | .here pa => match regionOf pa with
    | .cluster cl => if onPort1 m cl then some (cl, (pa - clusterBase) % 0x800000) else none
    | _ => none
  | _ => none

/-- The 64-byte words of a span, by address divided by 64. -/
def wordsOf (va len : Nat) : List Nat := (List.range ((va + len + 63) / 64 - va / 64)).map (· + va / 64)

/-- A port 0 write of the same cycle: its device virtual address and bytes, within one word. -/
abbrev Port0 := List (Nat × List Byte)

/-- Port 0 writes a word in this cycle. -/
def port0At (p0 : Port0) (w : Nat) : Bool := p0.any (fun x => x.1 / 64 == w)

/-- Key of a master's collisions in a row at a word of its cluster (R122). -/
def hitKey (m : Master) (o : Nat) : Nat := o / 64 * 2 ^ 24 + unitCode m

/-- The words that a write loses to port 0 (R121): after 16 collisions in a row at a word port 0 is held for it, and the write is performed (R122). -/
def lostWords (s : State) (m : Master) (n : Nat) (words : List Nat) (p0 : Port0) : List Nat :=
  words.filter (fun w => port0At p0 w && match port1Word s m n w with
    | some (cl, o) => decide (tabGet 0 (clusterOf s cl).hits (hitKey m o) < 16)
    | none => false)

/-- One attempt at some words on port 1: the collisions in a row of each are one more where it was lost, and none where it was written; a loss is counted
for its bank and master (R121–R123). -/
def noteHits (s : State) (m : Master) (n : Nat) (words lost : List Nat) : State :=
  words.foldl (fun s w => match port1Word s m n w with
    | some (cl, o) =>
      let bad := lost.contains w
      let s := modCluster s cl (fun x => { x with hits := if bad then tabMod 0 x.hits (hitKey m o) (· + 1) else tabSet 0 x.hits (hitKey m o) 0 })
      if bad then countCollide s m n cl o else s
    | none => s) s

/-- The part of a span's bytes that lies in one 64-byte word. -/
def wordPart (va : Nat) (bs : List Byte) (w : Nat) : Nat × List Byte :=
  let a := Nat.max va (64 * w)
  (a, (bs.drop (a - va)).take (64 * w + 64 - a))

/-- Some words of a span written. -/
def writeWords (s : State) (n va : Nat) (bs : List Byte) (words : List Nat) : State :=
  words.foldl (fun s w => writeSpan s n (wordPart va bs w).1 (wordPart va bs w).2 false) s

/-- The port 0 writes of the cycle that meet a word of the span in a cluster's bank: each is performed (R121), after the write for which port 0 was held
(R122). -/
def port0Writes (s : State) (m : Master) (n : Nat) (words : List Nat) (p0 : Port0) : State :=
  p0.foldl (fun s x => if words.contains (x.1 / 64) && (port1Word s m n (x.1 / 64)).isSome then
    writeSpan s n x.1 (x.2.take (64 - x.1 % 64)) false else s) s

/-- One attempt of a write at its memory, at the given words of its span: the state, and the words lost (R109, R120–R123). -/
def attempt (s : State) (m : Master) (n va : Nat) (bs : List Byte) (words : List Nat) (p0 : Port0) : State × List Nat :=
  let lost := lostWords s m n words p0
  let s := noteHits s m n words lost
  let s := if lost = [] && words = wordsOf va bs.length then writeSpan s n va bs false else writeWords s n va bs (words.filter (fun w => !lost.contains w))
  (port0Writes s m n words p0, lost)

/-- A write meets a 128-byte line that an earlier write of its unit has still to write after a COLLIDE (R109). -/
def lineHeld (s : State) (m : Master) (va len : Nat) : Bool :=
  s.retries.any (fun r => r.m == m && r.todo.any (fun w => spansMeet (w / 2 * 128) 128 (va / 128 * 128) (len + va % 128)))

/-- What a write request comes to. -/
inductive Written where
  | done (s : State) (r : Resp) (left : List Nat)
  /-- waits (R109, R167, R170, R182) -/
  | wait (s : State)
  deriving DecidableEq, Repr

/-- A write request at its memory (R109, R118, R120, R121, R175, R349); `h` names the transfer (R167). -/
def putAt (s : State) (m : Master) (h : Nat × Nat) (task : Option Nat) (n va : Nat) (bs : List Byte) (p0 : Port0) : Written :=
  match portRange s n va, task with
  | some r, some t =>
    if va = r.base * 4096 && bs.length = 64 then
      (match portPut s n r t bs with | some s' => .done s' .ok [] | none => .done s .fault [])
    else .done s .fault []
  | some _, none => .done s .fault []
  | none, _ =>
    let s := translateSpan s m n va bs.length true h
    match writeRefused s m n va bs.length with
    | some (.alarm code) => .done (raiseAlarm s code) .fault []
    | some .wait => .wait s
    | some _ => .done s .fault []
    | none =>
      if lineHeld s m va bs.length then .wait s
      else
        let r := attempt (chargeLines s m n va bs.length true) m n va bs (wordsOf va bs.length) p0
        .done r.1 (if r.2 = [] then .ok else .collide) r.2

/-- A write whose memory is another module's allocator port carries the task's index in DTASK (DESIGN CHOICE, log 38). -/
def remotePort (s : State) (n va : Nat) : Option Nat :=
  match findRange (partOf s n) va with
  | some r => if poolPort r va && r.modId != s.glb.moduleId then some r.modId else none
  | none => none

/-- Whether some byte of a span lies outside this module, so that its response comes from there. -/
def leavesModule (s : State) (n va len : Nat) (write : Bool) : Bool :=
  (List.range ((va + len + 4095) / 4096 - va / 4096)).any (fun i =>
    match translate s n (if i = 0 then va else (va / 4096 + i) * 4096) write with
    | .there _ _ => true | .host _ _ _ => true | _ => false)

/-- PUT_WRITE_AT_TARGET for a core: its oldest matching PUT is performed and answered; one that leaves the module is answered from there. -/
def putForCore (s : State) (c n va : Nat) (bs : List Byte) (p0 : Port0) : State :=
  match readyXfer s c true va (fun x => x.data == bs) with
  | none => s
  | some x =>
    let task := (holderCore s (holderOf s c x.xid)).task
    if taskShut (partOf s n) x.graph va x.len true then modXfer s c x.xid (fun y => { y with answer := some .fault })
    else match remotePort s n va with
    | some mid =>
      let vd := (partOf s n).vd
      modXfer (sendPacket s (mkPacket s 0x02 mid vd.vdid vd.edition task 0 false (BitVec.ofNat 64 va) bs)) c x.xid (fun y => { y with sent := true })
    | none =>
      match putAt s (.core c) (c, x.xid) (some task) n va bs p0 with
      | .wait s => s
      | .done s .ok _ =>
        let away := leavesModule s n va x.len true
        modXfer s c x.xid (fun y => { y with performed := !away, sent := away, answer := if away then none else some .ok })
      | .done s r left => modXfer s c x.xid (fun y => { y with answer := some r, todo := left })

/-- PUT_WRITE_AT_TARGET (R109): a write request is performed at its memory and answered; a unit other than a core that meets COLLIDE backs off. -/
def execPutWriteAtTarget (m : Master) (n : Nat) (va : Nat) (data : List Byte) (port0 : List (Nat × List Byte)) (s : State) : Out :=
  if !(partOf s n).vd.used || data = [] then .next s
  else match m with
  | .core c => .next (putForCore s c n va data port0)
  | _ => match putAt s m (unitCode m, va) none n va data port0 with
    | .wait s => .next s
    | .done s r left =>
      let s := if left = [] then s else { s with retries := s.retries ++ [{ m, n, va, data, todo := left, backoff := 4 }] }
      .next (answerReq s (unitCode m) va r [])

-- reads

/-- What a read request comes to. -/
inductive Fetched where
  | done (s : State) (r : Resp) (bs : List Byte)
  /-- waits for a migration, a host page or a repair -/
  | wait (s : State)
  /-- leaves the module in part or whole: the bytes that this module holds, by place; the others come with the response (R102) -/
  | away (s : State) (got : List (Option Byte))
  deriving DecidableEq, Repr

/-- The next piece of a read: to the end of its 128-byte line. -/
def linePiece (va len : Nat) : Nat := Nat.min len (128 - va % 128)

/-- The bytes of a read that all lie on this module. -/
def fetchEnd (s : State) (got : List (Option Byte)) : Fetched :=
  if got.all (·.isSome) then .done s .ok (got.map (·.getD 0#8)) else .away s got

/-- A span read line by line, with fuel; `i` counts lines (R109, R141, R349). A line that the LLM holds is not read from its stack (R129). -/
def readLines (m : Master) (n : Nat) (errs second : List (Nat × Byte)) : Nat → Nat → State → Nat → Nat → List (Option Byte) → Fetched
  | 0, _, s, _, _, acc => fetchEnd s acc
  | k + 1, i, s, va, len, acc =>
    if len = 0 then fetchEnd s acc
    else
      let c := linePiece va len
      if masterShut (partOf s n) m va then .done s .fault []
      else match translate s n va false with
      | .fault => .done s .fault []
      | .wait => .wait s
      | .host _ _ _ => readLines m n errs second k (i + 1) s (va + c) (len - c) (acc ++ List.replicate c none)
      | .there _ _ => readLines m n errs second k (i + 1) s (va + c) (len - c) (acc ++ List.replicate c none)
      | .here pa =>
        let here := (tabBytes · pa c |>.map some)
        match checkAccess s m n pa false with
        | .fault => .done s .fault []
        | .alarm code => .done (raiseAlarm s code) .fault []
        | .ok =>
          if isStack pa then
            let held := cached s (pa / 128)
            let r := eccLine s pa (if held then [] else lineErrs errs i) (lineErrs second i)
            (match r with
             | (s, .repair) => .wait s
             | (s, .poison) => .done s .poison []
             | (s, .good) =>
               if (lineMeta s (pa / 128)).getLsbD 1 && !accessSecure s m n then
                 .done (event (raiseAlarm s 2) 1 1 8 0 3 (pa / 0x80000000) (some n) none (memDetail pa 0 (keygenOf (lineMeta s (pa / 128))) 7 0)) .fault []
               else readLines m n errs second k (i + 1) s (va + c) (len - c) (acc ++ here s.mem))
          else if memPoisoned s pa c then
            (if (rangeAt s pa backed).isSome then
              .wait { s with err := { s.err with repairs := tabMod 0 s.err.repairs (pa / 128 * 128) (Nat.max 1) } } else .done s .poison [])
          else readLines m n errs second k (i + 1) s (va + c) (len - c) (acc ++ here s.mem)

/-- The traffic of a read that has been served (R129, R410). -/
def chargeFetched (m : Master) (n va len : Nat) : Fetched → Fetched
  | .done s r bs => .done (chargeLines s m n va len false) r bs
  | .away s got => .away (chargeLines s m n va len false) got
  | r => r

/-- A read request at its memory (R109, R118, R141, R175, R349); `h` names the transfer (R167). -/
def getAt (s : State) (m : Master) (h : Nat × Nat) (task : Option Nat) (n va len : Nat) (errs second : List (Nat × Byte)) : Fetched :=
  match portRange s n va, task with
  | some r, some t =>
    if va = r.base * 4096 && len = 64 then
      (match portGet s n r t with | some (s', bs) => .done s' .ok bs | none => .done s .fault [])
    else .done s .fault []
  | some _, none => .done s .fault []
  | none, _ => chargeFetched m n va len (readLines m n errs second (len / 128 + 2) 0 (translateSpan s m n va len false h) va len [])

/-- A read sent to where its bytes are, for one piece of its span: another module, or the host through this module or the front (R308, R455). -/
def readPiece (s : State) (n va len task : Nat) : State :=
  let vd := (partOf s n).vd
  let ask (mid : Nat) : State :=
    sendPacket s (mkPacket s 0x03 mid vd.vdid vd.edition task 0 false (BitVec.ofNat 64 va) (natBytes 8 len))
  match remotePort s n va with
  | some mid => ask mid
  | none => match translate s n va false with
    | .there mid _ => ask mid
    | .host addr pv pasid => (match hostFunc s n with
      | some f => { s with hostIn := s.hostIn ++ [{ port := portFor s f, func := f, addr, len, pasid := if pv then some pasid else none, translated := atsOn s f }] }
      | none => ask (frontModule vd))
    | _ => s

/-- A read sent out, page by page, for every piece of its span that does not lie on this module (R102). -/
def readOut (s : State) (n va len task : Nat) : State :=
  (pageStarts va len).foldl (fun s a => readPiece s n a (Nat.min (4096 - a % 4096) (va + len - a)) task) s

/-- GET_READ_AT_TARGET for a core: its oldest matching GET is served. -/
def getForCore (s : State) (c n va len : Nat) (errs second : List (Nat × Byte)) : State :=
  match readyXfer s c false va (fun x => x.len == len) with
  | none => s
  | some x =>
    let task := (holderCore s (holderOf s c x.xid)).task
    let sent (s : State) (got : List (Option Byte)) : State := modXfer (readOut s n va len task) c x.xid (fun y => { y with sent := true, got })
    if taskShut (partOf s n) x.graph va x.len false then modXfer s c x.xid (fun y => { y with performed := true, answer := some .fault })
    else if (remotePort s n va).isSome then sent s (List.replicate len none)
    else match getAt s (.core c) (c, x.xid) (some task) n va len errs second with
      | .wait s => s
      | .away s got => sent s got
      | .done s .ok bs => modXfer s c x.xid (fun y => { y with performed := true, answer := some .ok, data := bs })
      | .done s r _ => modXfer s c x.xid (fun y => { y with performed := true, answer := some r })

/-- GET_READ_AT_TARGET (R109): a GET or an engine's read is served. -/
def execGetReadAtTarget (m : Master) (n : Nat) (va len : Nat) (errs second : List (Nat × Byte)) (s : State) : Out :=
  if !(partOf s n).vd.used || len = 0 then .next s
  else match m with
  | .core c => .next (getForCore s c n va len errs second)
  | _ => match getAt s m (unitCode m, va) none n va len errs second with
    | .wait s => .next s
    | .away s _ => .next (readOut s n va len 0)
    | .done s r bs => .next (answerReq s (unitCode m) va r bs)

-- responses (R106, R109, R116)

def dropXfer (c k : Nat) (l : List Xfer) : List Xfer := l.filter (fun x => !(x.origin == c && x.xid == k))

/-- An OK response reaches the core that runs the task: data of a GET goes into local memory, and the transfer is complete. -/
def completeXfer (s : State) (d : Nat) (x : Xfer) (bs : List Byte) : State :=
  let k := coreOf s d
  if !x.write && nodeProtected k x.lbase x.len then
    coreFaultAt s d 6 (k.image.getD k.pc.toNat 0) k.pc (some x.lbase) sContextLost
  else
    let s := modCore s d (fun k =>
      let k := if x.write then k else localWrite k x.lbase (bs.take x.len)
      { k with xfers := dropXfer x.origin x.xid k.xfers })
    wake (countBoth s d k.part 6 4 x.len) d

/-- A response for a task that is being saved, or is saved, is parked until its restore (R106). -/
def parkXfer (s : State) (x : Xfer) (bs : List Byte) : State :=
  modXfer s x.origin x.xid (fun y => { y with parked := some (if x.write then [] else bs.take x.len), answer := none, performed := true })

/-- A message fault met by a task's transfer wherever the task is (R109, R116). -/
def xferFault (s : State) (h : Holder) (status : Nat) : State :=
  match h with
  | .core d => messageFault s d status
  | .save n r =>
    let cmd := match (launchOf s n r.launch).seq with | some q => if q < 2 ^ 32 then some (2, q) else none | none => none
    let s := event s 0 4 7 status 1 r.oldCore (some n) cmd [BitVec.ofNat 64 (r.task + (r.core.pc % 65536).toNat * 2 ^ 32), 0, 0]
    loseCtx s n status cmd 7 1 false
  | .gone => s

/-- Cycles of the next backoff (R109): 4, doubling to 64. -/
def nextBackoff (b : Nat) : Nat := if b = 0 then 4 else Nat.min 64 (2 * b)

/-- A transfer's translated addresses are no longer held: an Invalidate Completion or SUR_ATC_INV that waited for it last goes on (R165, R185). -/
def drained (s : State) (c k : Nat) : State :=
  let inv := s.sur.inv.map (fun v => { v with waits := v.waits.filter (· != (c, k)) })
  let ends := inv.filter (fun v => v.waits.isEmpty && !v.go)
  ends.foldl (fun s v => answerReq s (1048 + v.port) v.page .ok []) { s with sur := { s.sur with inv := inv.filter (fun v => !v.waits.isEmpty) } }

/-- The bytes of a GET: those that this module holds itself, and the others from the response. -/
def mergeGot (got : List (Option Byte)) (data : List Byte) : List Byte :=
  if got = [] then data else (got.zip data).map (fun x => x.1.getD x.2)

/-- RESPONSE (R106, R109): the requesting core acts on the code. A response that contradicts what the target on this module answered, or
that comes before it, does not occur. -/
def execResponse (c k : Nat) (r : Resp) (data : List Byte) (s : State) : Out :=
  let h := holderOf s c k
  match xferOf s c k with
  | none => .next s
  | some x =>
    if !(match x.answer with | some a => a == r | none => x.sent) || x.parked.isSome then .next s
    else
      let bs := if x.answer.isSome then x.data else mergeGot x.got data
      let live : Bool := match h with | .core d => (coreOf s d).mode == .running | _ => false
      let ends (t : State) : State := settleDying (drained t c k) (holderCore s h).part
      match r, h with
      | .ok, .core d =>
        if !x.write && bs.length < x.len then .next s
        else if live then .next (ends (completeXfer s d x bs)) else .next (ends (parkXfer s x bs))
      | .ok, _ => if !x.write && bs.length < x.len then .next s else .next (ends (parkXfer s x bs))
      | .collide, _ => .next (modXfer s c k (fun y => { y with
          answer := none, sent := false, todo := if y.todo = [] then wordsOf y.va y.len else y.todo, collides := y.collides + 1, backoff := nextBackoff y.backoff }))
      | .fault, _ => .next (ends (xferFault s h sContextLost))
      | .poison, _ => .next (ends (xferFault s h sPoisoned))

/-- A retry of a core's PUT: the words that collided are tried again (R109, R122). -/
def retryCore (s : State) (c k : Nat) (p0 : Port0) : State :=
  match xferOf s c k with
  | none => s
  | some x =>
    let n := (holderCore s (holderOf s c k)).part
    if x.backoff = 0 || x.todo = [] || x.answer.isSome then s
    else
      let s := translateSpan s (.core c) n x.va x.len true (c, k)
      match writeRefused s (.core c) n x.va x.len with
      | some .wait => s
      | some _ => modXfer s c k (fun y => { y with answer := some .fault })
      | none =>
        let away := leavesModule s n x.va x.len true
        let r := attempt s (.core c) n x.va x.data x.todo p0
        if r.2 = [] then
          modXfer r.1 c k (fun y => { y with performed := !away, sent := away, answer := if away then none else some .ok, todo := [], collides := 0, backoff := 0 })
        else modXfer r.1 c k (fun y => { y with answer := some .collide, todo := r.2 })

/-- A retry of another unit's write. -/
def retryUnit (s : State) (u va : Nat) (p0 : Port0) : State :=
  match s.retries.find? (fun r => unitCode r.m == u && r.va == va) with
  | none => s
  | some r =>
    let rest := s.retries.erase r
    match writeRefused s r.m r.n r.va r.data.length with
    | some .wait => s
    | some _ => answerReq { s with retries := rest } u va .fault []
    | none =>
      let a := attempt s r.m r.n r.va r.data r.todo p0
      if a.2 = [] then answerReq { a.1 with retries := rest } u va .ok []
      else
        let again (x : Retry) : Retry := if x = r then { x with todo := a.2, backoff := nextBackoff x.backoff } else x
        answerReq { a.1 with retries := s.retries.map again } u va .collide []

/-- COLLIDE_RETRY (R109, R122): of transfer `k` of core `c`, or of the write at address `k` of the unit with code `c`. `port0` are the writes of port 0 in
that cycle; a word that has collided 16 times in a row has port 0 held. -/
def execCollideRetry (c k : Nat) (port0 : List (Nat × List Byte)) (s : State) : Out :=
  .next (if c < 1024 then retryCore s c k port0 else retryUnit s c k port0)

-- bulk traffic (R108, R308)

/-- BULK_WRITE (R308): a VC3 write of another module performed at its destination. -/
def execBulkWrite (src : Origin) (va : Nat) (data : List Byte) (s : State) : Out :=
  let unit := unitCode (.remote src.modId)
  if !(partOf s src.n).vd.used || data = [] then .next s
  else match putAt s (.remote src.modId) (unit, va) none src.n va data [] with
    | .wait s => .next s
    | .done s r _ => .next (answerReq s unit va r [])

/-- BULK_READ (R308): a VC3 read of another module served, its data returned under the request's tag. -/
def execBulkRead (src : Origin) (ask : ReadAsk) (errs second : List (Nat × Byte)) (s : State) : Out :=
  let unit := unitCode (.remote src.modId)
  if !(partOf s src.n).vd.used || ask.len = 0 then .next s
  else match getAt s (.remote src.modId) (unit, ask.va) none src.n ask.va ask.len errs second with
    | .wait s => .next s
    | .away s _ => .next (readOut s src.n ask.va ask.len 0)
    | .done s r bs => .next (answerReq s unit ask.tag r bs)

end Sys2Proof.Machine
end

