-- ==== Sys2Proof/Machine/Survey.lean ====
section
/-! DEFINITION. The Surveyor's moves: target slots, redirect destinations, firmware areas and pages leaving a slice (R177–R180), and range entries as packets carry them (R157, R159). -/

namespace Sys2Proof.Machine

-- moves (R178–R180)

/-- Redirect entries inside an extent that a slot move has carried away are cleared, and their destination pages return to the carve-out (R179). -/
def clearRedirects (s : State) (r : Range) (t : Nat × Bool × Nat) : State :=
  if t.1 ≠ 0 then s
  else modChan s t.2.2 (fun c => { c with
    redirect := c.redirect.filter (fun x => !(decide (r.offset ≤ 16 * x.1) && decide (16 * x.1 + 16 ≤ r.offset + r.len / r.n))) })

/-- One target slot's extent copied to another target at once, and the slot rewritten here and on the other members: all the steps of R178 in one, as
evacuation takes them (R179, R180; DESIGN CHOICE, log 122). -/
def moveSlot (s : State) (n base slot typ dest offset : Nat) : State :=
  match (partOf s n).ranges.find? (fun r => r.base == base) with
  | none => s
  | some r =>
    let t := r.targets.getD slot (0, false, 0)
    let len := r.len / r.n
    let src := targetPa t.1 t.2.2 + r.offset * 4096
    let s := copyPages n src (targetPa typ dest + offset * 4096) len s
    rewriteHere (clearRedirects (stopMoves s n base) r t) n { r with targets := r.targets.set slot (typ, false, dest) }

/-- Every slot of a range placed anew at an offset, on the given targets (R178). -/
def moveRange (s : State) (n base typ offset : Nat) (dests : List Nat) : State :=
  let s := ((List.range dests.length).zip dests).foldl (fun s x => moveSlot s n base x.1 typ x.2 offset) s
  modPart (dropCached s n (fun x => x.base == base)) n (fun p => { p with ranges := p.ranges.map (fun x => if x.base = base then { x with offset } else x) })

/-- A slot can move to a target: it is a memory slice of the partition, not yet a target of the range, with the extent free (R178). -/
def slotCanMove (s : State) (n : Nat) (r : Range) (slot dest : Nat) : Bool :=
  decide (slot < r.n) && r.modId == s.glb.moduleId && r.kind == 1 && (r.targets.getD slot (1, false, 0)).1 == 0 && !(r.targets.getD slot (0, true, 0)).2.1 &&
  (placeSlices s n).contains dest && !r.targets.any (fun t => t.1 == 0 && t.2.2 == dest) && extentFree s n 0 dest r.offset (r.len / r.n)

/-- One slot moved off a channel: to the lowest channel that has the extent free, else the whole range to a new offset (R178). -/
def moveSlotOff (s : State) (n g : Nat) (r : Range) (slot : Nat) : Option State :=
  match (placeSlices s n).find? (fun d => d != g && slotCanMove s n r slot d) with
  | some d => some (moveSlot s n r.base slot 0 d r.offset)
  | none =>
    if r.targets.any (fun t => t.1 != 0) then none
    else match chooseExtent s n 0 ((placeSlices s n).filter (· != g)) r.n (r.len / r.n) with
      | some (a, ds) => some (moveRange s n r.base 0 a ds)
      | none => none

/-- Every slot on a channel moved (R180), with fuel. Ranges that have no room on this module are left, by BASE (R178). -/
def moveAllOff (n g : Nat) : Nat → List Nat → State → State × List Nat
  | 0, stuck, s => (s, stuck)
  | k + 1, stuck, s =>
    match (partOf s n).ranges.findSome? (fun r =>
      if r.kind = 1 && r.modId = s.glb.moduleId && !stuck.contains r.base then
        ((List.range r.n).find? (fun i => let t := r.targets.getD i (1, false, 0); t.1 == 0 && t.2.2 == g)).map (fun i => (r, i)) else none) with
    | none => (s, stuck)
    | some (r, i) => match moveSlotOff s n g r i with
      | some s => moveAllOff n g k stuck (tellRange s n r.base)
      | none => moveAllOff n g k (stuck ++ [r.base]) s

/-- A free 64 KiB page outside a channel. -/
def freePageOff (s : State) (n g : Nat) : Option Nat :=
  ((placeSlices s n).filter (· != g)).findSome? (fun h =>
    ((sortNat (startsOf (takenOn s n 0 h) 16)).find? (fun a => extentFree s n 0 h a 16)).map (fun a => chanPa h + a * 4096))

def onChan (g pa : Nat) : Bool := decide (chanPa g ≤ pa) && decide (pa < chanPa g + 0x80000000)

/-- Device-resident pages and redirect destinations on a channel moved (R180), with fuel. -/
def movePagesOff (n g : Nat) : Nat → State → Option State
  | 0, s => some s
  | k + 1, s =>
    match (partOf s n).residence.find? (fun x => x.2.dev && onChan g x.2.phys) with
    | some x => (match freePageOff s n g with
      | none => none
      | some pa =>
        let s := copyPages n x.2.phys pa 16 s
        movePagesOff n g k (modPart s n (fun p => { p with residence := tabMod {} p.residence x.1 (fun e => { e with phys := pa }) })))
    | none =>
      match (memSlices s n).findSome? (fun h => ((chanOf s h).redirect.find? (fun x => onChan g x.2)).map (fun x => (h, x))) with
      | none => some s
      | some (h, x) => (match freePageOff s n g with
        | none => none
        | some pa =>
          let s := copyPages n x.2 pa 16 s
          movePagesOff n g k (modChan s h (fun c => { c with redirect := c.redirect.map (fun y => if y.1 = x.1 then (y.1, pa) else y) })))

/-- The save records of an area that is placed elsewhere go with it (R180). -/
def moveRecords (n src dst pages : Nat) (s : State) : State :=
  let within (r : SaveRec) : Bool := r.place.any (fun a => decide (src ≤ a) && decide (a < src + pages * 4096))
  let s := ((partOf s n).saves.filter within).foldl (fun s r =>
    let a := r.place.getD 0
    copyPages n a (dst + (a - src)) ((recordSize r.extent + 4095) / 4096) s) s
  modPart s n (fun p => { p with saves := p.saves.map (fun r => if within r then { r with place := r.place.map (fun a => dst + (a - src)) } else r) })

/-- Firmware areas on a channel placed elsewhere (R180), with fuel. -/
def moveAreasOff (n g : Nat) : Nat → State → Option State
  | 0, s => some s
  | k + 1, s =>
    match (partOf s n).carve.areas.find? (fun a => a.2.1 == g) with
    | none => some s
    | some a =>
      let s' := modPart s n (fun p => { p with carve := { p.carve with areas := p.carve.areas.erase a } })
      match chooseExtent s' n 0 ((placeSlices s' n).filter (· != g)) 1 a.2.2.2 with
      | some (o, h :: _) =>
        let src := chanPa g + a.2.2.1 * 4096
        let dst := chanPa h + o * 4096
        let s' := modPart s' n (fun p => { p with carve := { p.carve with areas := p.carve.areas ++ [(a.1, h, o, a.2.2.2)] } })
        moveAreasOff n g k (moveRecords n src dst a.2.2.2 (markAreas (markAreas s' n g) n h))
      | _ => none

/-- Residence tables on a channel placed elsewhere; the model keeps their entries apart from memory. -/
def moveTablesOff (n g : Nat) : Nat → State → Option State
  | 0, s => some s
  | k + 1, s =>
    match (partOf s n).ranges.find? (fun r => r.kind == 3 && onChan g r.residence) with
    | none => some s
    | some r => match tablePlace s n ((placeSlices s n).filter (· != g)) r with
      | some a => moveTablesOff n g k (tellRange (rewriteHere s n { r with residence := a }) n r.base)
      | none => none

/-- Evacuation of a memory slice within this module (R179, R180), with the ranges beyond `stuck` that have no room on it: `none` when something else on the
slice has none. The channel's own redirect entries go with what they stood for. -/
def evacuateHere (n g : Nat) (stuck : List Nat) (s : State) : Option (State × List Nat) :=
  let p := partOf s n
  let k := (p.ranges.map (·.n)).sum + p.ranges.length
  match moveAreasOff n g p.carve.areas.length s with
  | none => none
  | some s => match moveTablesOff n g p.ranges.length s with
    | none => none
    | some s =>
      let (s, stuck) := moveAllOff n g k stuck s
      (movePagesOff n g (p.residence.length + (redirectsOf s n).length) s).map (fun s => (modChan s g (fun c => { c with redirect := [] }), stuck))

/-- Evacuation of several slices at once. -/
def evacuateAll (n : Nat) : List Nat → State × List Nat → Option (State × List Nat)
  | [], x => some x
  | g :: gs, x => match evacuateHere n g x.2 x.1 with | some y => evacuateAll n gs y | none => none

-- re-placement on another module of the virtual device (R178, R180)

/-- A range that leaves for another module, by BASE. -/
def awayOf (s : State) (n base : Nat) : Option Away := (partOf s n).aways.find? (fun a => a.base == base)
def modAway (s : State) (n base : Nat) (f : Away → Away) : State :=
  modPart s n (fun p => { p with aways := p.aways.map (fun a => if a.base = base then f a else a) })

/-- The next member is asked for room for a range, while one is left to ask. -/
def askRoom (s : State) (n base : Nat) : State :=
  match awayOf s n base, (partOf s n).ranges.find? (fun r => r.base == base) with
  | some a, some r => match a.left with
    | [] => modAway s n base (fun a => { a with to_ := none })
    | m :: ms => sendControl (modAway s n base (fun a => { a with left := ms, to_ := some m })) n m 0 ctlPlaceAsk base (rangeBytes r)
  | _, _ => s

/-- Room is sought for a range that has none here. -/
def seekRoom (s : State) (n base : Nat) : State :=
  if (awayOf s n base).isSome then s
  else askRoom (modPart s n (fun p => { p with aways := p.aways ++ [{ base, left := otherMembers s n, to_ := none }] })) n base

/-- Room that is not used is given back. -/
def dropAways (s : State) (n : Nat) : State :=
  let l := (partOf s n).aways.filter (fun a => !a.copying)
  let s := modPart s n (fun p => { p with aways := p.aways.filter (·.copying) })
  l.foldl (fun s a => match a.to_, a.given with | some m, some _ => sendControl s n m 0 ctlPlaceFree a.base [] | _, _ => s) s

/-- A range for which another module has no room is placed here, where this one has (R177, R178); its data come behind. -/
def placeAsked (s : State) (n src : Nat) (r : Range) : State :=
  let refuse : State := sendControl s n src 0 ctlPlaceAnswer r.base []
  match autoPlace s n { r with modId := s.glb.moduleId } false r.n with
  | .error _ => refuse
  | .ok r' =>
    if rangePages s n r' > freePages s n then refuse
    else sendControl (modPart s n (fun p => { p with coming := p.coming ++ [{ src, range := r', left := r'.len }] })) n src 0 ctlPlaceAnswer r.base (rangeBytes r')

/-- The answer of a module that was asked for room. -/
def placeAnswered (s : State) (n src base : Nat) (given : Option Range) : State :=
  match awayOf s n base, given with
  | some a, some r =>
    if a.to_ = some src then modAway s n base (fun a => { a with given := some r }) else sendControl s n src 0 ctlPlaceFree base []
  | some a, none => if a.to_ = some src then askRoom s n base else s
  | none, some _ => sendControl s n src 0 ctlPlaceFree base []
  | none, none => s

/-- Room found for every one of some ranges, found for none of one, or still sought. -/
def roomFor (s : State) (n : Nat) (bases : List Nat) : State × Option Bool :=
  let s := bases.foldl (fun s b => seekRoom s n b) s
  let l := bases.filterMap (awayOf s n)
  if l.any (fun a => a.to_.isNone) then (dropAways s n, some false)
  else if l.all (fun a => a.given.isSome) then (s, some true) else (s, none)

/-- The pages of a range sent to the module that takes it, in increasing order, through redirect entries; poisoned words are sent so (R126, R178). -/
def sendRange (s : State) (n m : Nat) (r : Range) : State :=
  (List.range r.len).foldl (fun s i =>
    let va := (r.base + i) * 4096
    let pa := redirect s (deviceAddr r va)
    let s := sendPiece s n m va (tabBytes s.mem pa 4096) true false
    ((List.range 64).filter (fun j => memPoisoned s (pa + 64 * j) 64)).foldl (fun s j => sendPiece s n m (va + 64 * j) (tabBytes s.mem (pa + 64 * j) 64) false true) s) s

/-- The copy of a range to the module that has room for it begins. -/
def copyAway (n : Nat) (s : State) (base : Nat) : State :=
  match awayOf s n base, (partOf s n).ranges.find? (fun r => r.base == base) with
  | some a, some r => match a.to_ with
    | some m => if a.copying then s else sendRange (modAway s n base (fun a => { a with copying := true })) n m r
    | none => s
  | _, _ => s

/-- The length, and the words, of what an allocator holds for a pool: its blocks, then its replies. -/
def poolNats (x : Pool) : List Nat :=
  x.blocks.length :: x.blocks.flatMap (fun b => [b.1, b.2]) ++ x.replies.flatMap (fun r => [r.1, r.2.status, r.2.order, r.2.addr])
def blocksIn : Nat → List Nat → Tab Nat × List Nat
  | k + 1, a :: o :: l => let r := blocksIn k l; ((a, o) :: r.1, r.2)
  | _, l => ([], l)
def repliesIn : Nat → List Nat → List (Nat × PortReq)
  | k + 1, t :: st :: o :: a :: l => (t, ⟨st, o, a⟩) :: repliesIn k l
  | _, _ => []
def poolOfNats (l : List Nat) : Pool :=
  let b := blocksIn (l.headD 0) l.tail
  { blocks := b.1, replies := repliesIn b.2.length b.2 }

/-- A range has been copied whole: its entry names the other module from now on, here and on every member, and its extents here are free; the allocator of
a pool goes with it (R178 step 4, R182). -/
def placed (s : State) (n src base : Nat) : State :=
  match awayOf s n base, (partOf s n).ranges.find? (fun r => r.base == base) with
  | some a, some r => match a.given with
    | some g =>
      if a.to_ ≠ some src || !a.copying then s
      else
        let s := r.targets.foldl (fun s t => clearRedirects s r t) (stopMoves s n base)
        let s := if r.pool then sendControl s n src 0 ctlPool base ((poolNats (tabGet {} (partOf s n).pools base)).flatMap (natBytes 8)) else s
        let s := if r.pool then modPool s n base (fun x => { x with replies := [] }) else s
        let s := modPart s n (fun p => { p with aways := p.aways.filter (fun a => a.base != base) })
        tellRange (rewriteHere s n { r with modId := src, offset := g.offset, targets := g.targets }) n base
    | none => s
  | _, _ => s

/-- Bytes of a range that comes from another module, by the OPERAND of their packet: written where the range is placed here; the last page is reported. -/
def pieceCome (s : State) (n src v : Nat) (bs : List Byte) : State :=
  let va := v % 2 ^ 52
  match (partOf s n).coming.find? (fun c => c.src == src && decide (c.range.base ≤ va / 4096) && decide (va / 4096 < c.range.base + c.range.len)) with
  | none => s
  | some c =>
    let s := memWrite s n (redirect s (deviceAddr c.range va)) bs (bitOf v 62)
    if !bitOf v 61 then s
    else
      let s := modPart s n (fun p => { p with coming := p.coming.map (fun x => if x = c then { x with left := x.left - 1 } else x) })
      if c.left = 1 then sendControl s n src 0 ctlPlaced c.range.base [] else s

/-- What the evacuation of a slice comes to. -/
inductive Evac where
  | done (s : State)
  /-- ranges are on their way to other modules -/
  | wait (s : State)
  /-- the virtual device has no room, and nothing moves -/
  | refused (s : State)

/-- Evacuation of a memory slice (R178–R180): ranges without room on this module go to others first; when some other module has room for each of them they
are copied there, and what is left moves within this module (DEDUCED, log 122). Margining clears a channel to the partition's own slices only, `far` false
(R148). -/
def evacuate (s : State) (n g : Nat) (far : Bool) : Evac :=
  match evacuateHere n g [] s with
  | none => .refused (dropAways s n)
  | some (t, []) => .done t
  | some (_, stuck) =>
    if !far then .refused s
    else match roomFor s n stuck with
    | (s, some true) => .wait (stuck.foldl (copyAway n) s)
    | (s, some false) => .refused s
    | (s, none) => .wait s

/-- Whether the virtual device has room for all that lies on some slices (R180, R262): asked of the other modules where this one has none. -/
def canEvacuate (s : State) (n : Nat) (gs : List Nat) : State × Option Bool :=
  match evacuateAll n gs (s, []) with
  | none => (dropAways s n, some false)
  | some (_, []) => (s, some true)
  | some (_, stuck) => roomFor s n stuck

/-- Tasks on a compute slice are pre-empted, to be rebound elsewhere (R85, R394). -/
def preemptSlice (s : State) (c : Nat) : State :=
  { s with cores := tabMapV (fun i k => if i / 16 = c && k.mode = .running then { k with preemptReq := true } else k) s.cores }

/-- Every core of a compute slice is idle. -/
def sliceIdle (s : State) (c : Nat) : Bool := (List.range 16).all (fun i => (coreOf s (16 * c + i)).mode == .idle)

end Sys2Proof.Machine
end

