-- ==== Sys2Proof/Machine/Ranges.lean ====
section
/-! DEFINITION. Range commands, the allocator's commands, LLM granules, page migration, faults, ATS, and the Surveyor's moves (R132, R157–R186, R233, R377). -/

namespace Sys2Proof.Machine

/-- A PF command of Q0 or Q5 with its partition; a context that has gone ends it with S_ABORTED. -/
def pfCommand (s : State) (f q seq opc : Nat) (body : Cmd → Nat → State) : Out :=
  match startedCmd s f q seq opc with
  | none => .next s
  | some c => match targetPart s f c with
    | none => .next (finish s f q seq sAborted 0)
    | some n => .next (body c n)

-- RANGE_MAP and RANGE_UNMAP (R159, R162, R163, R173, R177, R181)

/-- The checks of a RANGE_MAP that its own module makes: the status that refuses it, or the range to place (R159, R163, R177, R233). -/
def mapCheck (s : State) (n : Nat) (w : Nat → Nat) (opt : Nat) : Except Nat Range :=
  let auto := bitOf opt 0
  let r := rangeOf w
  match entryCheck auto w with
  | some st => .error st
  | none =>
    if bits opt 6 2 ≥ 17 then .error sBadPacket
    else if r.kind = 1 && !(memberModule s n r.modId && (auto || deviceOk s n r)) then .error sBadPacket
    else if (partOf s n).ranges.any (rangesMeet r) || (partOf s n).ranges.length ≥ 16384 then .error sRefused
    else if r.kind = 3 && !atsOn s ((hostFunc s n).getD n) then .error sRefused
    else .ok r

/-- Range commands of a virtual device are served one at a time, in fetch order (R182). -/
def rangeTurn (s : State) (f n : Nat) (c : Cmd) : Bool :=
  (partOf s n).rangeOp.isNone &&
  ((queueOf s f 0).cmds.takeWhile (fun d => d.seq != c.seq)).all (fun d => d.phase == .done || d.ctx != c.ctx || !(d.opc == 0x08 || d.opc == 0x09))

/-- RANGE_MAP (R157, R159, R162, R163, R173, R177, R233): the module on which the range lies places it, and every other member's copy is written before the
command completes. -/
def execRangeMap (f seq : Nat) (s : State) : Out :=
  pfCommand s f 0 seq 0x08 (fun c n =>
    let opt := cmdWord c 80
    if !rangeTurn s f n c then s
    else match mapCheck s n (fun i => cmdWord c (16 + 8 * i)) opt with
    | .error st => finish s f 0 seq st 0
    | .ok r =>
      let o (r : Range) (waits : List Nat) : RangeOp := { f, q := 0, seq, kind := 0, stage := 0, waits, range := r }
      if placerHere s n r then
        match placeRange s n r opt with
        | .error st => finish s f 0 seq st 0
        | .ok r => rangeSpread (addHere s n r) n (o r []) ctlRange []
      else
        let m := placerOf s n r
        sendControl (modPart s n (fun p => { p with rangeOp := some (o r [m]) })) n m 0 ctlRangeAsk opt (rangeBytes r))

/-- A range that another member asks this module to place (R159, R162, R173, R177): placed and mapped here, or refused. -/
def rangeAsked (s : State) (n src opt : Nat) (r : Range) : State :=
  match placeRange s n r opt with
  | .error st => sendControl s n src 0 ctlRangeAnswer st []
  | .ok r => sendControl (addHere s n r) n src 0 ctlRangeAnswer 0 (rangeBytes r)

/-- The answer of the module that was asked to place a range. -/
def rangePlaced (s : State) (n src status : Nat) (r : Range) : State :=
  match (partOf s n).rangeOp with
  | none => s
  | some o =>
    if o.stage ≠ 0 || o.waits ≠ [src] then s
    else if status ≠ 0 then rangeEnd s n o status
    else rangeSpread (addHere s n r) n { o with range := r } ctlRange [src]

/-- RANGE_UNMAP (R181, R182). -/
def execRangeUnmap (f seq : Nat) (s : State) : Out :=
  pfCommand s f 0 seq 0x09 (fun c n =>
    if !rangeTurn s f n c then s
    else match (partOf s n).ranges.find? (fun r => r.base * 4096 == cmdWord c 16) with
    | none => finish s f 0 seq sRefused 0
    | some r =>
      rangeSpread (withdraw s n r (some s.glb.moduleId)) n
        { f, q := 0, seq, kind := 1, stage := 0, waits := [], range := r, scrub := bitOf (cmdWord c 24) 0 } ctlRangeGone [])

/-- LLM_CONFIG (R132, R172): the partition's cache on the granule's die is written back and invalidated, since its sets change. -/
def execLlmConfig (f seq : Nat) (s : State) : Out :=
  pfCommand s f 0 seq 0x0B (fun c n =>
    let i := bits (cmdWord c 16) 8 0
    let cache := bitOf (cmdWord c 16) 16
    let g := granuleOf s i
    if !g.valid || g.part ≠ n then finish s f 0 seq sRefused 0
    else if g.cache = cache then finish s f 0 seq sOk 0
    else
      let s := clearSpan (flushCache s n (i / 128)) (granulePa i) 0x100000
      let s := modGranule s i (fun x => { x with cache })
      finish (setLegend s (.llm i) n rightsTenant (partOf s n).vd.secure (partOf s n).vd.secure) f 0 seq sOk 0)

-- the allocator's commands (R174–R176)

/-- ALLOC (R176): the allocator serves a task's request at a pool on this module. -/
def execAlloc (n base task order : Nat) (zero : Bool) (s : State) : Out :=
  match poolRange (partOf s n) base with
  | none => .next s
  | some r => if portBusy (partOf s n) base task || r.modId ≠ s.glb.moduleId then .next s else .next (poolAlloc s n r task order zero)

/-- FREE (R176). -/
def execFree (n base task addr : Nat) (s : State) : Out :=
  match poolRange (partOf s n) base with
  | none => .next s
  | some r => if portBusy (partOf s n) base task || r.modId ≠ s.glb.moduleId then .next s else .next (poolFree s n r task addr)

/-- ALLOC_PORT_GET (R175): the task's GET collects the held reply, which is sent to it; without a request it is a FAULT. -/
def execAllocPortGet (n base task : Nat) (s : State) : Out :=
  match poolRange (partOf s n) base with
  | none => .next s
  | some r => if r.modId ≠ s.glb.moduleId then .next s
    else match portGet s n r task with
      | some (s, bs) => .next (answerReq s (unitCode (.cp 0)) task .ok bs)
      | none => .next (answerReq s (unitCode (.cp 0)) task .fault [])

-- host pages (R163–R171)

/-- The MIGRATABLE range whose 64 KiB page has the given key. -/
def migratable (p : Part) (page : Nat) : Option Range :=
  p.ranges.find? (fun r => r.kind == 3 && decide (r.base ≤ page) && decide (page < r.base + r.len) && (page - r.base) % 16 == 0)

/-- PAGE_MIGRATE (R170): steps 1 and 2, where the page has none yet: MIGRATING is set, a free page of the home partition's carve-out taken, and the host
page translated; then steps 3 and 4 with `data`, the host page. -/
def execPageMigrate (n page : Nat) (data : List Byte) (s : State) : Out :=
  let p := partOf s n
  match migratable p page with
  | none => .next s
  | some r =>
    let e := tabGet {} p.residence page
    let set (s : State) (e : Residence) : State := modPart s n (fun p => { p with residence := tabSet {} p.residence page e })
    if !isHomePart p || e.dev then .next s
    else if e.phys = 0 then
      let s := translateSpan s (.cp 0) n (page * 4096) (Nat.min 65536 ((r.base + r.len - page) * 4096)) false (unitCode (.cp 0), page)
      match hostDest s n (hostAddr r (page * 4096)) r.pv r.pasid, freePage s n with
      | .wait, _ => .next s
      | _, none => .next (set s {})
      | _, some pa => .next (set s { dev := false, migrating := true, phys := pa })
    else if data.length ≠ 65536 then .next s
    else
      let s := set (memWrite s n (redirect s e.phys) data false) { dev := true, migrating := false, phys := e.phys }
      .next (modPart s n (fun p => { p with carve := { p.carve with migrated := satAdd 0xFFFFFFFF p.carve.migrated 1 } }))

/-- A device-resident page copied back to its host page, poison with it (R126, R171): the pieces are 4 KiB. -/
def pageBack (s : State) (n : Nat) (r : Range) (key phys : Nat) : State :=
  (List.range (Nat.min 16 (r.base + r.len - key))).foldl (fun s i =>
    let pa := redirect s (phys + 4096 * i)
    writeOut s n ((key + i) * 4096) (hostDest s n (hostAddr r ((key + i) * 4096)) r.pv r.pasid) (tabBytes s.mem pa 4096) (memPoisoned s pa 4096)) s

/-- What the return of a page to the host comes to (R171, R182): none while the page moves to the device or the host has not translated it, else the
status. -/
def pageReturn (s : State) (n va : Nat) : State × Option Nat :=
  let p := partOf s n
  match findRange p va with
  | none => (s, some sRefused)
  | some r =>
    let key := pageKey r va
    let e := tabGet {} p.residence key
    if r.kind ≠ 3 then (s, some sRefused)
    else if e.migrating then (s, none)
    else if !e.dev then (s, some sOk)
    else
      let a := hostAddr r (key * 4096)
      let s := (List.range 16).foldl (fun s i => askHost s n (unitCode .me, key) (a + 4096 * i) r.pv r.pasid) s
      if (List.range 16).any (fun i => hostDest s n (a + 4096 * i) r.pv r.pasid == .wait) then (s, none)
      else (modPart (pageBack s n r key e.phys) n (fun p => { p with residence := tabSet {} p.residence key {} }), some sOk)

/-- MIGRATE_RETURN (R171, R182): the page is copied back to the host, DEV cleared, the device page freed. Its home module does so, which the front's asks
where it is another. -/
def execMigrateReturn (f seq : Nat) (s : State) : Out :=
  match startedCmd s f 5 seq 0x60 with
  | none => .next s
  | some c =>
    let p := partOf s f
    let va := cmdWord c 16
    let there := match findRange p va with | some r => r.kind == 3 && !isHomePart p | none => false
    if there then
      if c.moved = 1 then .next s
      else .next (sendControl (modCmd s f 5 seq (fun d => { d with moved := 1 })) f (homeModule p) seq ctlPageReturn va [])
    else match pageReturn s f va with
      | (s, none) => .next s
      | (s, some st) => .next (finish s f 5 seq st 0)

/-- PAGE_FAULT (R166, R167, R169): the host gives the holder, a unit and its transfer, no access to the 64 KiB page `page`. -/
def execPageFault (port fn pasid page : Nat) (holder : Nat × Nat) (s : State) : Out :=
  if fn = 0 || fn > 64 || port > 1 then .next s
  else .next (hostFault s { port, fn, pasid, page, holders := [holder] })

/-- PAGE_REQUEST_GROUP_RESPONSE (R168): success lets the held transfers translate again; failure completes them with FAULT (DEDUCED, log 97). -/
def execPageRequestGroupResponse (fn pasid page : Nat) (success : Bool) (s : State) : Out :=
  let same (x : FaultEntry) : Bool := x.fn == fn && x.pasid == pasid && x.page == page
  match s.sur.faultQ.find? (fun x => same x && x.sent) with
  | none => .next s
  | some e =>
    let n := fn - 1
    let s := settleFaults { s with sur := { s.sur with faultQ := s.sur.faultQ.filter (fun x => !same x) } }
    let s := markPages s n (hostPages s n (page * 65536) (page * 65536 + 65536)) false
    if success then .next s
    else
      let s := event s 2 4 1 sFaultXlate 7 e.port (some n) none [0, BitVec.ofNat 64 (page * 65536), 0]
      .next (e.holders.foldl (holderFault n) s)

/-- ATC entries of a port that satisfy a test are dropped. -/
def atcDrop (s : State) (p : AtcEntry → Bool) : State := { s with sur := { s.sur with atc := s.sur.atc.filter (fun e => !p e) } }

/-- A transfer holds a translated address of host pages that satisfy a test: a read that the host has not answered (R165). -/
def holdsHost (s : State) (n : Nat) (p : Nat → Nat → Bool) (x : Xfer) : Bool :=
  x.sent && !x.write && x.parked.isNone && (pageStarts x.va x.len).any (fun a => match hostPageOf s n a false with
    | some (addr, pv, pasid) => p (pasidTag pv pasid) (addr / 4096)
    | none => false)

/-- Entries of some functions on a port are invalid at once; the answer waits for the transfers that hold their translated addresses (R165, R185). -/
def invalidate (s : State) (port page : Nat) (go : Bool) (fns : Nat → Bool) (p : Nat → Nat → Bool) : State :=
  let waits := (livePartsOf s).flatMap (fun n =>
    if fns (n + 1) && portFor s n = port then ((xfersOf s n).filter (holdsHost s n p)).map (fun x => (x.origin, x.xid)) else [])
  if waits = [] then (if go then s else answerReq s (1048 + port) page .ok [])
  else { s with sur := { s.sur with inv := s.sur.inv ++ [{ port, page, go, waits }] } }

/-- ATS_INVALIDATE_REQUEST (R163, R165, R182): matching entries are invalid at once, a migration copying from such a page is abandoned, and the Invalidate
Completion is sent once the transfers that hold the addresses have drained. The queue holds 32 requests. -/
def execAtsInvalidateRequest (port fn pasid page : Nat) (pages : Nat) (s : State) : Out :=
  if port > 1 || (s.sur.inv.filter (fun v => !v.go)).length ≥ 32 then .next s
  else
    let s := atcDrop s (fun e => e.port == port && e.fn == fn && e.pasid == pasid && decide (e.page < page + pages) && decide (page < e.page + e.pages))
    let s := if fn = 0 then s else
      let held := (s.sur.faultQ.filter (fun x => x.fn == fn)).flatMap (fun x => hostPages s (fn - 1) (x.page * 65536) (x.page * 65536 + 65536))
      let keys := (hostPages s (fn - 1) (page * 4096) ((page + pages) * 4096)).filter (fun k => !held.contains k)
      modPart s (fn - 1) (fun p => { p with residence := keys.foldl (fun t k => tabMod {} t k (fun e => if e.dev then e else {})) p.residence })
    .next (invalidate s port page false (· == fn) (fun tag q => tag == pasid && decide (page ≤ q) && decide (q < page + pages)))

/-- SUR_ATC_INV (R185): the driver invalidates a function's entries on a port; GO stays set until the drain of R165 has ended. -/
def execSurAtcInv (port : Nat) (all : Bool) (fn : Nat) (s : State) : Out :=
  if port > 1 || s.sur.inv.any (·.go) then .next s
  else
    let s := atcDrop s (fun e => e.port == port && (all || e.fn == fn))
    let s := { s with sur := { s.sur with invPort := port == 1, invAll := all, invFn := fn % 128 } }
    .next (invalidate s port 0 true (fun f => all || f == fn) (fun _ _ => true))

-- the Surveyor's moves (R178, R180)

/-- The move of a target slot that is under way (R178). -/
def moveOf (s : State) (n base slot : Nat) : Option Move := s.sur.moves.find? (fun m => m.n == n && m.base == base && m.slot == slot)

/-- A move begins: MOVING is set in the slot (R178 step 2). -/
def moveBegin (s : State) (n : Nat) (r : Range) (slot dest : Nat) (cmd : Option (Nat × Nat)) : State :=
  let mark (t : Nat × Bool × Nat) : Nat × Bool × Nat := (t.1, true, t.2.2)
  let s := modPart s n (fun p => { p with ranges := p.ranges.map (fun x =>
    if x.base = r.base then { x with targets := x.targets.set slot (mark (x.targets.getD slot (0, false, 0))) } else x) })
  { s with sur := { s.sur with moves := s.sur.moves ++ [{ n, base := r.base, slot, dest, steps := 0, cmd }] } }

/-- The end of a move (R178 step 4): the slot is rewritten here and in every member's copy; the extent that it left is kept till they have answered. -/
def moveEnd (s : State) (n : Nat) (r : Range) (m : Move) : State :=
  let t := r.targets.getD m.slot (0, false, 0)
  let s := { s with sur := { s.sur with moves := s.sur.moves.filter (· != m) } }
  let s := clearRedirects s r t
  let r' : Range := { r with targets := r.targets.set m.slot (0, false, m.dest) }
  let s := rewriteHere s n r'
  match m.cmd with
  | none => tellRange s n r.base
  | some (f, seq) =>
    let left : Range := { r with n := 1, len := r.len / r.n, targets := [t] }
    rangeSpread (modPart s n (fun p => { p with dying := p.dying ++ [(left, none)] })) n { f, q := 5, seq, kind := 2, stage := 1, waits := [], range := r' } ctlRangeSet []

/-- One 64 KiB step of a move, in increasing order (R178 steps 2 to 4); the last one ends it, when no range command of the virtual device is under way. -/
def moveStep (s : State) (n : Nat) (r : Range) (m : Move) : State :=
  let t := r.targets.getD m.slot (0, false, 0)
  let pages := r.len / r.n
  if 16 * m.steps ≥ pages then (if (partOf s n).rangeOp.isSome then s else moveEnd s n r m)
  else
    let o := (r.offset + 16 * m.steps) * 4096
    let s := copyPages n (targetPa t.1 t.2.2 + o) (chanPa m.dest + o) (Nat.min 16 (pages - 16 * m.steps)) s
    let m' : Move := { m with steps := m.steps + 1 }
    let s := { s with sur := { s.sur with moves := s.sur.moves.map (fun x => if x = m then m' else x) } }
    if 16 * m'.steps < pages || (partOf s n).rangeOp.isSome then s else moveEnd s n r m'

/-- REBALANCE (R177, R178, R233): the move begins; SLOT_MOVE carries it on, and the command completes with its end. -/
def execRebalance (f seq : Nat) (s : State) : Out :=
  pfCommand s f 5 seq 0x61 (fun c n =>
    if c.moved = 1 then s
    else match (partOf s n).ranges.find? (fun r => r.base * 4096 == cmdWord c 16) with
    | none => finish s f 5 seq sRefused 0
    | some r =>
      let slot := bits (cmdWord c 24) 3 0
      let dest := bits (cmdWord c 24) 24 16
      if !slotCanMove s n r slot dest then finish s f 5 seq sRefused 0
      else moveBegin (modCmd s f 5 seq (fun d => { d with moved := 1 })) n r slot dest (some (f, seq)))

/-- SLOT_MOVE (R178): a move of one target slot begins, to a channel that has its extent free, or goes on by one step. -/
def execSlotMove (n base slot dest : Nat) (s : State) : Out :=
  match (partOf s n).ranges.find? (fun r => r.base == base) with
  | none => .next s
  | some r => match moveOf s n base slot with
    | some m => .next (moveStep s n r m)
    | none => if slotCanMove s n r slot dest then .next (moveBegin s n r slot dest none) else .next s

/-- Everything on this module's leaving slices has left them; a partition that goes entirely has ended its kernels too (log 139). -/
def leavingClear (s : State) (n : Nat) : Bool :=
  (partOf s n).vd.leaving.all (fun k =>
    if isCompute k then sliceIdle s k else if isMemory k then (takenOn s n 0 (k - 64)).all (fun x => (chanOf s (k - 64)).retired.any (fun q => x == (16 * q, 16 * q + 16))) else true) &&
  (!goesEntirely s n || ((partOf s n).launches.all (fun x => !x.2.live || x.2.ended) && (partOf s n).saves.isEmpty))

/-- A member tells the front's module that its leaving slices are clear (R262; log 33). -/
def reportClear (s : State) (n : Nat) : State :=
  let vd := (partOf s n).vd
  match vd.members.find? (fun m => m.rank == vd.frontRank) with
  | some m => if leavingClear s n && !vd.front then sendAtlas s m.modId atlClear vd.vdid [] else s
  | none => s

/-- SLICE_EVACUATE (R180, R262): a leaving memory slice is cleared of everything placed on it; the tasks of a leaving compute slice are
pre-empted. -/
def execSliceEvacuate (n slice : Nat) (s : State) : Out :=
  if !(partOf s n).vd.leaving.contains slice || (sliceOf s slice).state ≠ .assigned || (sliceOf s slice).owner ≠ n then .next s
  else if isCompute slice then .next (reportClear (preemptSlice s slice) n)
  else if isMemory slice then
    (match evacuate s n (slice - 64) true with | .done s => .next (reportClear s n) | .wait s => .next s | .refused s => .next s)
  else .next (reportClear s n)

end Sys2Proof.Machine
end

