-- ==== Sys2Proof/Machine/Stream.lean ====
section
/-! DEFINITION. Streams: slots, KV pages, output records and rings, and what journal entries do to them (R187–R192, R200–R202, R208–R214, R276–R283). -/

namespace Sys2Proof.Machine

-- slots (R189–R191)

/-- The slot that STREAM_OPEN's slot words describe; `w i` is the word at slot byte 8 i. -/
def slotFrom (w : Nat → Nat) : Stream :=
  { state := .prefill, draftMax := bits (w 0) 47 43, prio := bits (w 0) 42 40, keep := bitOf (w 0) 39, ring := bits (w 1) 63 58, nextSeq := 1
    graph := bits (w 2) 63 48, limit := bits (w 3) 31 0, seed := BitVec.ofNat 64 (w 6), temp := bits (w 7) 63 48, topP := bits (w 7) 47 32
    topK := bits (w 7) 31 16, stop0 := bits (w 8) 63 32, stop1 := bits (w 8) 31 0, reqTag := BitVec.ofNat 64 (w 9), prompt := bits (w 10) 51 0
    promptLen := bits (w 11) 63 32 }

/-- Slots of a stream cache, and the streams a module carries (R187, R190). -/
def cacheSlots : Nat := 16384
def moduleStreams : Nat := 262144
def cachedStreams (s : State) : Nat := (s.parts.map (fun p => (p.2.str.streams.filter (fun x => x.2.cached)).length)).sum
def openStreams (s : State) : Nat := (s.parts.map (fun p => (p.2.str.streams.filter (fun x => x.2.state != .free)).length)).sum
/-- OPENs that wait for their journal entries. -/
def waitingOpens (s : State) : Nat := (s.parts.map (fun p => (p.2.journal.waiting.filter (fun w => w.item.typ == jOpen)).length)).sum

/-- Streams of a partition run: its context is ACTIVE, or replay has resumed selection (R281). -/
def streamsRun (p : Part) : Bool := p.ctx.state == .active || (p.ctx.state == .recovering && p.str.replayOn)

/-- PREFILL or READY, by whether prompt tokens remain (R191). -/
def waitsAs (x : Stream) : StreamState := if x.prefilled < x.promptLen then .prefill else .ready

/-- The newest version of a graph, with its generation block (R192). -/
def newestGen (p : Part) (h : Nat) : Option (GVersion × GenBlock) :=
  match (tabGet {} p.graphs h).versions.getLast? with
  | some v => v.gen.map (fun g => (v, g))
  | none => none
/-- The generation block of a version. -/
def genAt (p : Part) (h v : Nat) : Option GenBlock := (gversionOf p h v).bind (·.gen)

-- KV pages (R200, R201)

/-- The primary pool of a generation block. The sequencer's requests to a pool on another module are served from this module's table of the
pool's blocks (DESIGN CHOICE, log 48). -/
def primaryPool (s : State) (n : Nat) (g : GenBlock) : Option Range :=
  (partOf s n).ranges.find? (fun r => r.pool && r.base == g.pools.headD 0)

/-- A block of the primary pool for the sequencer (R200). -/
def takeBlock (s : State) (n : Nat) (g : GenBlock) (order : Nat) : Option (Nat × State) :=
  match primaryPool s n g with
  | none => none
  | some r => (offsetBlock (partOf s n) r order).map (fun a => (a, modPool s n r.base (fun x => { x with blocks := tabSet 0 x.blocks a order })))
def giveBlock (s : State) (n : Nat) (g : GenBlock) (a : Nat) : State :=
  modPool s n (g.pools.headD 0) (fun x => { x with blocks := tabSet 0 x.blocks a 0 })

/-- Page numbers kept in reserve for a graph. -/
def reserveOf (s : State) (n h : Nat) : List Nat := tabGet [] (partOf s n).str.freePages h
def setReserve (s : State) (n h : Nat) (l : List Nat) : State := modStr s n (fun t => { t with freePages := tabSet [] t.freePages h l })

/-- One page number: from the reserve, else from the allocator (R200). -/
def takePage (s : State) (n h : Nat) (g : GenBlock) : Option (Nat × State) :=
  match reserveOf s n h with
  | p :: ps => some (p, setReserve s n h ps)
  | [] => (takeBlock s n g g.pageOrder).map (fun x => ((x.1 - g.pools.headD 0 * 4096) / 2 ^ g.pageOrder, x.2))

/-- Up to `k` page numbers, with fuel; fewer come back when none is left. -/
def takePages (n h : Nat) (g : GenBlock) : Nat → State → List Nat → List Nat × State
  | 0, s, l => (l, s)
  | k + 1, s, l => match takePage s n h g with
    | some (p, s) => takePages n h g k s (l ++ [p])
    | none => (l, s)

/-- Pages returned: up to 256 stay in reserve, the rest go back to the allocator (R200). -/
def returnPages (s : State) (n h : Nat) (g : GenBlock) (ps : List Nat) : State :=
  let all := reserveOf s n h ++ ps
  (all.drop 256).foldl (fun s p => giveBlock s n g (g.pools.headD 0 * 4096 + p * 2 ^ g.pageOrder)) (setReserve s n h (all.take 256))

/-- What the sequencer's own transfers hold under (R167). -/
def ssHolder (seq : Nat) : Nat × Nat := (1038, seq)
/-- For work of its own, which no command stands for. -/
def ownWork : Nat × Nat := ssHolder (2 ^ 32)

/-- A write by the sequencer of several spans: all, or none and what refuses the first (R24, R155). -/
inductive SsWrite where
  | done (s : State)
  | wait (s : State)
  | fails (s : State) (va : Nat) (r : ReadRes)
  deriving DecidableEq, Repr

def ssWrite (s : State) (n : Nat) (ws : List (Nat × List Byte)) : SsWrite :=
  let s := ws.foldl (fun s w => translateSpan s .ss n w.1 w.2.length true ownWork) s
  match ws.findSome? (fun w => (writeRefused s .ss n w.1 w.2.length).map (fun r => (w.1, r))) with
  | some (_, .wait) => .wait s
  | some (va, r) => .fails s va r
  | none => .done (ws.foldl (fun s w => writeSpan s n w.1 w.2 false) s)

/-- Entries of a page list from index `i` on (R201). -/
def writeList (s : State) (n kvList i : Nat) (ps : List Nat) : SsWrite := ssWrite s n [(kvList + 4 * i, ps.flatMap (natBytes 4))]

/-- kv_cover (R195, R201): the page list covers the given number of positions, or no page can be had, which is a wait. -/
def kvCover (s : State) (n id positions : Nat) (g : GenBlock) : SsWrite :=
  let x := streamOf s n id
  let want := (positions + g.tpp - 1) / g.tpp - x.pages.length
  let (ps, s) := takePages n x.graph g want s []
  if want = 0 then .done s
  else if ps.length < want then .wait (returnPages s n x.graph g ps)
  else match writeList s n x.kvList x.pages.length ps with
    | .done s => .done (modStream s n id (fun y => { y with pages := y.pages ++ ps }))
    | .wait s => .wait (returnPages s n x.graph g ps)
    | r => r

/-- Order of the block that holds a page list of `limit` positions: at least 4 KiB (R201). -/
def listOrder (g : GenBlock) (limit : Nat) : Nat :=
  ((List.range 31).find? (fun o => decide (12 ≤ o) && decide (4 * ((limit + g.tpp - 1) / g.tpp) ≤ 2 ^ o))).getD 30

/-- KV pages of a stream freed. -/
def dropPages (s : State) (n id : Nat) : State :=
  let x := streamOf s n id
  match genAt (partOf s n) x.graph x.gver with
  | none => s
  | some g => modStream (returnPages s n x.graph g x.pages) n id (fun y => { y with pages := [], spill := 0, spilled := 0, image := [], imageBad := [] })

-- rings and records (R210–R213, R280)

/-- Record places of a ring that a selection can reserve: on the front, those not written and unread, not reserved, and not promised to a record on its
way; on another home, those that the front has granted it (R195, R212, R213; DESIGN CHOICE, log 165). -/
def ringFree (front : Bool) (r : Ring) : Nat := if front then 2 ^ r.log2 - (r.p - r.c) - r.reserved - r.waiting.length else r.quota

/-- Places reserved for a stream (R195). -/
def ringReserve (s : State) (n ring recs : Nat) : State :=
  modRing s n ring (fun r => { r with reserved := r.reserved + recs, quota := r.quota - recs })

/-- A home that is not the front asks it for the places that it lacks (log 165). -/
def ringAsk (s : State) (n ring recs : Nat) : State :=
  let r := ringOf s n ring
  if (partOf s n).vd.front || r.asking then s
  else sendControl (modRing s n ring (fun y => { y with asking := true })) n (frontModule (partOf s n).vd) 0 ctlRingAsk (ring + 64 * (recs - r.quota)) []

/-- Places that go back to the front (R213; log 165). -/
def ringBack (s : State) (n ring k : Nat) : State :=
  if (partOf s n).vd.front || k = 0 then s else sendControl s n (frontModule (partOf s n).vd) 0 ctlRingBack (ring + 64 * k) []

/-- A stream's reservation ends with its verdict, `used` of its places taken by records (R213). -/
def ringSettle (s : State) (n ring recs used : Nat) : State :=
  ringBack (modRing s n ring (fun r => { r with reserved := r.reserved - recs })) n ring (recs - used)

/-- Granted places for which no stream of this home waits go back (log 165). -/
def quotaBack (s : State) (n ring : Nat) : State :=
  let r := ringOf s n ring
  let uses (x : Stream) : Bool := x.ring == ring && (x.state == .prefill || x.state == .ready || x.state == .waitOutput)
  if r.quota = 0 || (partOf s n).str.streams.any (fun x => uses x.2) then s
  else ringBack (modRing s n ring (fun y => { y with quota := 0 })) n ring r.quota

/-- The front grants places to the homes that wait for some, oldest first, as far as the ring has them; with fuel (log 165). -/
def serveAsks (n ring : Nat) : Nat → State → State
  | 0, s => s
  | k + 1, s =>
    let r := ringOf s n ring
    match r.asks with
    | [] => s
    | a :: rest =>
      if ringFree true r < a.2 then s
      else serveAsks n ring k (sendControl (modRing s n ring (fun y => { y with reserved := y.reserved + a.2, asks := rest })) n a.1 0 ctlRingGrant (ring + 64 * a.2) [])
def ringServe (s : State) (n ring : Nat) : State := serveAsks n ring (ringOf s n ring).asks.length s

/-- An output record without its PHASE (R211). -/
def outRecord (id flags seq logp token time pos status : Nat) : List Byte :=
  natBytes 4 (id + flags * 2 ^ 24) ++ natBytes 6 seq ++ natBytes 2 logp ++ natBytes 4 token ++ natBytes 8 time ++ natBytes 4 pos ++
  natBytes 1 status ++ natBytes 1 1 ++ natBytes 2 0

/-- A record as DIGEST and the comparison of a replay see it: TIME and PHASE zero (R213, R280). -/
def bareRecord (bs : List Byte) : List Byte :=
  bs.take 3 ++ [(bs.getD 3 0#8) &&& 0xFE#8] ++ (bs.drop 4).take 12 ++ List.replicate 8 0#8 ++ bs.drop 24

/-- A stream's place among the producer's deliveries: last SEQ and the CRC-64 state. -/
def freshDigest : Nat × BitVec 64 := (0, BitVec.allOnes 64)

/-- A divergence (R282): nothing more goes to any ring, the record names stream and SEQ, the context is LOST. -/
def diverged (s : State) (n id seq : Nat) : State :=
  let s := event s 4 4 1 sDiverged 8 14 (some n) none [BitVec.ofNat 64 id, BitVec.ofNat 64 seq, 0]
  loseCtx s n sDiverged none 0 1 false

/-- A record reaches the producer (R213, R281 step 5, R282): a regenerated one up to D is compared and suppressed, any other waits for its ring. -/
def takeRecord (s : State) (n ring id seq : Nat) (bs : List Byte) : State :=
  match tabGet none (partOf s n).str.replays id with
  | none => modRing s n ring (fun r => { r with waiting := r.waiting ++ [(id, seq, bs)] })
  | some rp =>
    if seq > rp.d then modRing s n ring (fun r => { r with waiting := r.waiting ++ [(id, seq, bs)] })
    else
      let dg := crc64Run (tabGet freshDigest (partOf s n).str.delivered id).2 (bareRecord bs)
      if seq = rp.jseq && digestOf dg ≠ rp.jdigest then diverged s n id seq
      else if seq > rp.jseq && rp.readBack.any (fun x => x.1 == seq && bareRecord x.2 != bareRecord bs) then diverged s n id seq
      else modStr s n (fun t => { t with delivered := tabSet freshDigest t.delivered id (seq, dg) })

/-- A record released by its home: to the producer on the front module (R280). `held` says that it takes a place that was reserved. -/
def emitRecord (s : State) (n id seq : Nat) (bs : List Byte) (held : Bool) : State :=
  let vd := (partOf s n).vd
  let ring := (streamOf s n id).ring
  if vd.front then takeRecord s n ring id seq bs
  else sendControl s n (frontModule vd) id ctlRecord (ring + seq * 64 + b2n held * 2 ^ 54) bs

/-- A record of another home at the producer. -/
def recordCome (s : State) (n id arg : Nat) (bs : List Byte) : State :=
  let ring := arg % 64
  let s := if bitOf arg 54 then modRing s n ring (fun r => { r with reserved := r.reserved - 1 }) else s
  takeRecord s n ring id (arg / 64 % 2 ^ 48) bs

/-- Streams in WAIT_OUTPUT of a ring go back to PREFILL or READY (R191). -/
def wakeOutput (s : State) (n ring : Nat) : State :=
  modStr s n (fun t => { t with streams := tabMapV (fun _ x => if x.state = .waitOutput && x.ring = ring then { x with state := waitsAs x } else x) t.streams })

-- ends (R201, R208, R209)

/-- Every unended stream of a graph version is in WAIT_KV (R202). -/
def allWaitKv (p : Part) (h v : Nat) : Bool :=
  let l := p.str.streams.filter (fun x => x.2.graph == h && x.2.gver == v && !(x.2.state == .free || x.2.state == .done || x.2.state == .faulted))
  !l.isEmpty && l.all (fun x => x.2.state == .waitKv)

/-- The KV-stall event's condition where the graph has no SPILL range (R202). -/
def kvStalled (p : Part) (h v : Nat) : Bool := (match genAt p h v with | some g => g.spill == 0 | none => false) && allWaitKv p h v

/-- The KV-stall event to the driver (R202, R374). -/
def kvStallEvent (s : State) (n : Nat) : State := event s 4 1 2 0 8 14 (some n) none []

/-- The event where a graph version has come to stall. -/
def noteStall (before : Bool) (s : State) (n h v : Nat) : State := if kvStalled (partOf s n) h v && !before then kvStallEvent s n else s

/-- A stream enters DONE; its KV pages are freed unless KEEP (R201, R208). The other streams of its graph version may be left without pages (R202). -/
def endStream (s : State) (n id status : Nat) : State :=
  let x := streamOf s n id
  let before := kvStalled (partOf s n) x.graph x.gver
  let s := if x.keep then s else dropPages s n id
  let s := modStream s n id (fun x => { x with state := .done, endStatus := status, pausing := false, cancelling := false, drafts := [], ndraft := 0, replayStop := none })
  noteStall before (quotaBack s n x.ring) n x.graph x.gver

/-- The END record of a cancelled stream (R209, R211): it takes the SEQ of NEXT_SEQ and consumes it (DEDUCED, log 126). `held` says that a place is
reserved for it. -/
def endRecord (s : State) (n id : Nat) (held : Bool) : State :=
  let x := streamOf s n id
  let flags := 4 + 32 + (if x.nextSeq = 1 then 2 else 0)
  let s := emitRecord s n id x.nextSeq (outRecord id flags x.nextSeq 0 0xFFFFFFFF s.pwr.meridian 0 sAborted) held
  modStream s n id (fun y => { y with nextSeq := y.nextSeq + 1 })

/-- A cancelled stream ends (R209). -/
def cancelStream (s : State) (n id : Nat) (held : Bool) : State := endStream (endRecord s n id held) n id sAborted

-- commands (R192, R218, R276)

/-- A front's destruction of its Q1 is acknowledged once no command that it forwarded runs here (R246, R247). -/
def stopAnswer (s : State) (n mid : Nat) : State :=
  let p := partOf s n
  if !p.str.stopFrom.contains mid || p.journal.waiting.any (fun w => w.func == 1000 + mid) then s
  else sendControl (modStr s n (fun t => { t with stopFrom := t.stopFrom.filter (· != mid) })) n mid 0 ctlStopped 1 []

/-- Where the answer to a stream command goes: the front's own queue, or the front's module, which forwarded it (1000 + its module ID);
65 for none. -/
def streamReply (s : State) (n func seq status result : Nat) : State :=
  if func < 64 then finish s func 1 seq status result
  else if func ≥ 1000 then stopAnswer (sendControl s n (func - 1000) seq ctlStreamDone status (natBytes 8 result)) n (func - 1000)
  else s

/-- The home module of a stream, by its ownership token (R269). -/
def streamHome (s : State) (n id : Nat) : Nat :=
  let t := tabGet (0, 0) (partOf s n).str.tokens id
  if t.1 = 0 then s.glb.moduleId else t.2

/-- A stream command forwarded to the SS of its home module (R218; the packet's form is the model's, log 33). -/
def forwardCmd (s : State) (n seq mid : Nat) (c : Cmd) : State :=
  let s := modCmd s n 1 seq (fun d => { d with moved := 1, sentTo := some mid })
  sendControl s n mid seq ctlStreamCmd (c.opc * 256 + c.flags) (c.words.flatMap (fun w => natBytes 8 w.toNat))

/-- A stream of a partition has a durable entry in the home journal (R279). -/
def isDurable (p : Part) (id : Nat) : Bool := p.journal.home.any (fun it => it.durable && it.stream == id && it.typ ≤ 2)

/-- An entry without body for a stream. -/
def plainItem (typ id seq : Nat) (tag : W64) : JournalItem :=
  { typ, vdid := 0, jseq := 0, edition := 0, stream := id, owner := 0, reqTag := tag, seq, durable := false, body := [] }

/-- The home journal has no room for a request: it is refused and ATL_EVENT says so (R278). -/
def journalFull (s : State) (n func seq id : Nat) : State :=
  let s := { s with atl := { s.atl with event := s.atl.event ||| 8 } }
  let s := event s 4 1 3 sRefused 8 14 (some n) none [BitVec.ofNat 64 id, 0, 0]
  streamReply s n func seq sRefused 0

/-- The checks of a STREAM_OPEN that journal nothing (R187, R192, R275, R279): the status that refuses it. -/
def openCheck (s : State) (n : Nat) (w : Nat → Nat) (rank : Nat) (durable : Bool) : Option Nat :=
  let p := partOf s n
  let x := slotFrom w
  let id := bits (w 0) 19 0
  if bits (w 0) 63 60 ≠ 1 then some sUnsupported
  else if x.limit < x.promptLen + 1 || id ≥ 2 ^ 18 || !p.vd.members.any (fun m => m.rank == rank) then some sBadPacket
  else match newestGen p x.graph with
    | none => some sRefused
    | some (_, g) =>
      if x.draftMax > g.draftLimit || id ≥ g.idLimit then some sBadPacket
      else if !(tabGet {} p.str.rings x.ring).created || (tabGet {} p.str.streams id).state ≠ .free || !p.vd.partnerValid ||
        (durable && p.vd.store == 0) || !p.str.tablePlaced || openStreams s + waitingOpens s ≥ moduleStreams || (takeBlock s n g (listOrder g x.limit)).isNone then some sRefused
      else none

/-- Prompt tokens as the words of a journal body. -/
def promptWords (bs : List Byte) : List W64 := (pieces 8 bs).map (fun b => BitVec.ofNat 64 (bytesNat b))

/-- A read by the sequencer of what a command names; what memory outside the module holds there is not known to the model: free bytes
(DESIGN CHOICE, log 10). -/
def ssRead (s : State) (n seq va len : Nat) : State × ReadRes :=
  let (d, s) := draw s
  engineRead s .ss (ssHolder seq) n va len ((List.range len).map (Config.freeByte d))

/-- A request to be accepted goes into the journals, with its prompt (R276–R279). -/
def requestEntry (s : State) (n func seq prompt len : Nat) (durable : Bool) (it : JournalItem) : State :=
  match ssRead s n (if func < 64 then seq else 2 ^ 32) prompt (4 * len) with
  | (s, .ok bs) =>
    let it := { it with durable, body := it.body ++ promptWords bs }
    if homeUsed s + itemSize it > halfBytes then journalFull s n func seq it.stream
    else
      let s := if func < 64 then modCmd s func 1 seq (fun d => { d with moved := 1 }) else s
      journalise s n func seq durable it
  | (s, r) => engineFails s n (if func < 64 then some (1, seq) else none) 14 prompt r

/-- STREAM_OPEN at the home module (R192, R276). -/
def openAt (s : State) (n func seq : Nat) (w : Nat → Nat) (rank : Nat) (durable : Bool) : State :=
  match openCheck s n w rank durable with
  | some st => streamReply s n func seq st 0
  | none =>
    let x := slotFrom w
    let body := (List.range 14).map (fun i => BitVec.ofNat 64 (w i)) ++ [BitVec.ofNat 64 rank, 0]
    requestEntry s n func seq x.prompt x.promptLen durable { plainItem jOpen (bits (w 0) 19 0) 0 x.reqTag with body }

/-- STREAM_APPEND at the home module (R192, R276). -/
def appendAt (s : State) (n func seq id prompt len limit tag : Nat) (durable : Bool) : State :=
  let x := streamOf s n id
  let p := partOf s n
  if x.state ≠ .done || !x.keep || !p.vd.partnerValid || (durable && p.vd.store == 0) then streamReply s n func seq sRefused 0
  else
    let body := [BitVec.ofNat 64 (len * 2 ^ 32 + limit), BitVec.ofNat 64 prompt] ++ List.replicate 6 0#64
    requestEntry s n func seq prompt len durable { plainItem jAppend id 0 (BitVec.ofNat 64 tag) with body }

/-- States in which R192 accepts a command, by its journal type. -/
def acceptedIn (typ : Nat) (x : Stream) : Bool :=
  match typ with
  | 3 => x.state == .prefill || x.state == .ready || x.state == .waitKv || x.state == .waitOutput || x.state == .scheduled || x.state == .spilled
  | 4 => x.state == .paused
  | 5 => !(x.state == .free || x.state == .done || x.state == .faulted)
  | 6 => x.state == .done || x.state == .faulted
  | _ => false

-- what an entry does once it is held (R192, R276)

/-- The other members are told that a stream is homed here, or has gone (R192, R210, R269; log 165). -/
def tellOwner (s : State) (n id arg graph : Nat) : State :=
  (otherMembers s n).foldl (fun s m => sendControl s n m id ctlOwner arg (natBytes 8 graph)) s

/-- A stream's home has told of it: the token, and what the front's checks need of its slot. -/
def ownerTold (s : State) (n src id arg graph : Nat) : State :=
  let e := (partOf s n).vd.edition
  modStr s n (fun t => { t with
    tokens := tabSet (0, 0) t.tokens id (if arg = 0 then (0, 0) else (e, src))
    away := tabSet (0, 0) t.away id (if arg = 0 then (0, 0) else (arg, graph))
    specGens := if arg = 0 then tabSet 0 t.specGens id 0 else t.specGens })

/-- The stream that an OPEN entry makes (R192, R201): GVER, the page list, PREFILL. `none` when the slot is no longer FREE, the ring has gone, the module
carries all the streams it can (R187), or no block is left for the page list. -/
def openStream (s : State) (n : Nat) (it : JournalItem) : Option State :=
  let w (i : Nat) : Nat := (it.body.getD i 0).toNat
  let x := slotFrom w
  if (streamOf s n it.stream).state ≠ .free || openStreams s ≥ moduleStreams || !(ringOf s n x.ring).created then none
  else match newestGen (partOf s n) x.graph with
  | none => none
  | some (v, g) =>
    match takeBlock s n g (listOrder g x.limit) with
    | none => none
    | some (a, s) =>
      let s := modStream s n it.stream (fun _ => { x with gver := v.ver, kvList := a, cached := decide (cachedStreams s < cacheSlots) })
      some (tellOwner (modStr s n (fun t => { t with tokens := tabSet (0, 0) t.tokens it.stream (it.edition, s.glb.moduleId) })) n it.stream (x.ring + 1) x.graph)

/-- The page list grows with an APPEND's LIMIT when its block is too small (R201 gives no other size; DESIGN CHOICE, log 47). -/
def growList (s : State) (n id limit : Nat) : Option State :=
  let x := streamOf s n id
  match genAt (partOf s n) x.graph x.gver with
  | none => none
  | some g =>
    if listOrder g limit ≤ tabGet 0 (tabGet {} (partOf s n).pools (g.pools.headD 0)).blocks x.kvList then some s
    else match takeBlock s n g (listOrder g limit) with
      | none => none
      | some (a, s) =>
        match writeList (giveBlock s n g x.kvList) n a 0 x.pages with
        | .done s => some (modStream s n id (fun y => { y with kvList := a }))
        | .wait _ => none
        | .fails s va r => some (engineFails s n none 14 va r)

/-- The effect of an APPEND entry (R192). A stream that ended with its pages spilled is SPILLED until they are back (DEDUCED, log 125). -/
def appendStream (s : State) (n : Nat) (it : JournalItem) : Option State :=
  let w0 := (it.body.getD 0 0).toNat
  if (streamOf s n it.stream).state ≠ .done then none
  else (growList s n it.stream (bits w0 31 0)).map (fun s => modStream s n it.stream (fun x => if x.state ≠ .done then x else { x with
    prompt := bits ((it.body.getD 1 0).toNat) 51 0, promptLen := bits w0 63 32, limit := bits w0 31 0, reqTag := it.reqTag, prefilled := 0
    state := if x.spill ≠ 0 then .spilled else .prefill, endStatus := 0, drafts := [], ndraft := 0 }))

/-- Where the entries of one request, those up to the next APPEND, stop a regenerated stream: SEQ, and whether it ends there (R281 step 4). A
CANCEL stands behind its request for good, a PAUSE only while no later entry lifts it (DEDUCED, log 130). -/
def stopOf (l : List JournalItem) : Option (Nat × Bool) :=
  let own := l.takeWhile (fun i => i.typ != jAppend)
  match own.filter (fun i => i.typ == jCancel) with
  | c :: cs => some (((c :: cs).getLastD c).seq, true)
  | [] => if own.length < l.length then none
    else match (own.filter (fun i => i.typ == jPause || i.typ == jResume)).getLast? with
      | some i => if i.typ = jPause then some (i.seq, false) else none
      | none => none

/-- A regenerated stream has come to the SEQ at which an entry stops it: `some cancel` (R281 step 4). -/
def replayStopped (x : Stream) : Option Bool :=
  match x.replayStop with | some (q, c) => if x.nextSeq ≥ q then some c else none | none => none

/-- The next requests of a replayed stream, from the entries behind the one that has ended (R281). -/
def replayTake (n id : Nat) : State → List JournalItem → State
  | s, [] => modStream s n id (fun x => { x with again := [] })
  | s, it :: rest =>
    if it.typ ≠ jAppend then replayTake n id s rest
    else match appendStream s n it with
      | none => modStream s n id (fun x => { x with again := it :: rest })
      | some s =>
        let s := modStream s n id (fun x => { x with again := rest, replayStop := stopOf rest })
        match replayStopped (streamOf s n id) with
        | none => s
        | some true => replayTake n id (cancelStream s n id false) rest
        | some false => modStream s n id (fun x => { x with state := .paused, replayStop := none })

/-- A replayed stream that has come to the end of a request takes up the next APPEND of its journal (R281). -/
def replayAppend (s : State) (n id : Nat) : State :=
  if (streamOf s n id).again = [] then s else replayTake n id s (streamOf s n id).again

/-- A regenerated stream enters PAUSED or DONE at its stop (R281 step 4). -/
def replayHalt (s : State) (n id : Nat) : State :=
  match replayStopped (streamOf s n id) with
  | none => s
  | some true => replayAppend (cancelStream s n id false) n id
  | some false => modStream s n id (fun y => { y with state := .paused, replayStop := none })

/-- A stream closed (R192, R201): pages and page list freed, the slot FREE, a version it alone pinned freed. -/
def closeStream (s : State) (n id : Nat) : State :=
  let x := streamOf s n id
  let s := dropPages s n id
  let s := match genAt (partOf s n) x.graph x.gver with | some g => giveBlock s n g x.kvList | none => s
  let s := modStr s n (fun t => { t with
    streams := tabSet {} t.streams id {}
    tokens := tabSet (0, 0) t.tokens id (0, 0)
    delivered := tabSet freshDigest t.delivered id freshDigest })
  pruneGraph (tellOwner s n id 0 0) n x.graph

/-- The effect of a PAUSE, RESUME, CANCEL or CLOSE entry; `none` when the stream's state no longer accepts it. -/
def controlStream (s : State) (n : Nat) (it : JournalItem) : Option State :=
  let id := it.stream
  let x := streamOf s n id
  if !acceptedIn it.typ x then none
  else some (
    if it.typ = jPause then modStream s n id (fun y => if y.state = .scheduled then { y with pausing := true } else { y with state := .paused })
      |> (quotaBack · n x.ring)
    else if it.typ = jResume then modStream s n id (fun y => { y with state := if y.spill ≠ 0 then .spilled else waitsAs y })
    else if it.typ = jCancel then (if x.state = .scheduled then modStream s n id (fun y => { y with cancelling := true }) else cancelStream s n id false)
    else closeStream s n id)

/-- A DELIVERY entry fully written moves P_j (R280). -/
def deliveryWritten (s : State) (n : Nat) (it : JournalItem) : State :=
  modRing s n (it.body.headD 0).toNat (fun r => { r with pj := (it.body.getD 1 0).toNat })

/-- An entry held in every journal takes effect and its command completes (R192, R276). -/
def entryEffect (s : State) (n : Nat) (w : Pending) : State :=
  let it := w.item
  let drop (s : State) : State := modPart s n (fun p => { p with journal := { p.journal with waiting := p.journal.waiting.filter (fun y => y.jseq != w.jseq) } })
  -- SEQ is NEXT_SEQ when the entry takes effect (R277); a partner that holds another is sent the entry again
  let it := if it.typ = jPause || it.typ = jResume || it.typ = jCancel then { it with seq := (streamOf s n it.stream).nextSeq } else it
  let keep (s : State) : State :=
    let s := modPart s n (fun p => { p with journal := { p.journal with home := journalAdd p.journal.home it } })
    if it.seq ≠ w.item.seq && (partOf s n).vd.partnerValid then sendMirror s n it else s
  let s := drop s
  if w.func = 65 then keep (if it.typ = jDelivery then deliveryWritten s n it else s)
  else match (if it.typ = jOpen then openStream s n it else if it.typ = jAppend then appendStream s n it else controlStream s n it) with
    | none => streamReply s n w.func w.cmdSeq sRefused 0
    | some s => streamReply (keep s) n w.func w.cmdSeq (if it.typ ≤ 2 then sAccepted else sOk) it.reqTag.toNat

/-- An entry whose copies are complete takes effect. -/
def entrySettle (s : State) (n jseq : Nat) : State :=
  match (partOf s n).journal.waiting.find? (fun w => w.jseq == jseq) with
  | none => s
  | some w => if entryHeld w then entryEffect s n w else s

def modPending (s : State) (n jseq : Nat) (g : Pending → Pending) : State :=
  modPart s n (fun p => { p with journal := { p.journal with waiting := p.journal.waiting.map (fun w => if w.jseq = jseq then g w else w) } })

/-- STREAM_PAUSE, _RESUME, _CANCEL and _CLOSE at the home module: refused in any other state, else journalled and then made (R192, R276). -/
def controlAt (s : State) (n func seq id typ : Nat) : State :=
  let x := streamOf s n id
  if !acceptedIn typ x then streamReply s n func seq sRefused 0
  else
    let s := if func < 64 then modCmd s func 1 seq (fun d => { d with moved := 1 }) else s
    let j := (partOf s n).journal.nextJseq
    entrySettle (journalise s n func seq false (plainItem typ id x.nextSeq x.reqTag)) n j

/-- A request that cannot be held is discarded and refused (R278, R286, R344). -/
def entryRefused (s : State) (n jseq : Nat) : State :=
  match (partOf s n).journal.waiting.find? (fun w => w.jseq == jseq) with
  | none => s
  | some w =>
    let s := modPart s n (fun p => { p with journal := { p.journal with waiting := p.journal.waiting.filter (fun y => y.jseq != jseq) } })
    streamReply s n w.func w.cmdSeq sRefused 0

/-- JOURNAL_ACCEPT (R276): the partner holds the entry. -/
def execJournalAccept (n jseq : Nat) (s : State) : Out := .next (entrySettle (modPending s n jseq (fun w => { w with mirrored := true })) n jseq)

/-- STORE_WRITE_COMPLETE (R279, R344): the store holds the entry, or its command failed and the acceptance is refused. -/
def execStoreWriteComplete (n jseq : Nat) (ok : Bool) (s : State) : Out :=
  match (partOf s n).journal.waiting.find? (fun w => w.jseq == jseq && w.needStore && !w.stored) with
  | none => .next s
  | some w =>
    let s := storeReap s (partOf s n).vd.store
    if ok then .next (entrySettle (modPending s n jseq (fun y => { y with stored := true })) n jseq)
    else if w.item.typ ≤ 2 then .next (entryRefused s n jseq)
    else .next (entrySettle (modPending s n jseq (fun y => { y with needStore := false, item := { y.item with durable := false } })) n jseq)

/-- A stream command at its home: the words count from packet byte 0. -/
def streamCmdAt (s : State) (n func seq opc : Nat) (durable : Bool) (w : Nat → Nat) : State :=
  let id := bits (w 16) 19 0
  match opc with
  | 0x22 => openAt s n func seq (fun i => w (16 + 8 * i)) (bits (w 128) 19 0) durable
  | 0x23 => appendAt s n func seq id (bits (w 24) 51 0) (bits (w 32) 63 32) (bits (w 32) 31 0) (w 40) durable
  | 0x24 => controlAt s n func seq id jPause
  | 0x25 => controlAt s n func seq id jResume
  | 0x26 => controlAt s n func seq id jCancel
  | _ => controlAt s n func seq id jClose

/-- A STREAM_OPEN of a stream ID that is in use at another home (R187, R192): the status that refuses it. -/
def openElsewhere (s : State) (f : Nat) (c : Cmd) : Option Nat :=
  let id := bits (cmdWord c 16) 19 0
  if tabGet (0, 0) (partOf s f).str.away id = (0, 0) && (streamOf s f id).state = .free then none
  else some ((openCheck s f (fun i => cmdWord c (16 + 8 * i)) (bits (cmdWord c 128) 19 0) (cmdDurable c)).getD sRefused)

/-- An earlier STREAM_OPEN of the same stream ID is under way (R187). -/
def openRuns (s : State) (f : Nat) (c : Cmd) : Bool :=
  ((queueOf s f 1).cmds.takeWhile (fun d => d.seq != c.seq)).any (fun d =>
    d.opc == 0x22 && d.phase == .started && bits (cmdWord d 16) 19 0 == bits (cmdWord c 16) 19 0)

/-- A stream command of the front's Q1: served here, or forwarded to the module that is home to the stream (R218). -/
def streamCmd (s : State) (f seq opc : Nat) : Out :=
  match startedCmd s f 1 seq opc with
  | none => .next s
  | some c =>
    if c.moved ≠ 0 || (opc = 0x22 && openRuns s f c) then .next s
    else match (if opc = 0x22 then openElsewhere s f c else none) with
    | some st => .next (finish s f 1 seq st 0)
    | none =>
      let vd := (partOf s f).vd
      let id := bits (cmdWord c 16) 19 0
      let mid : Option Nat := if opc = 0x22 then (vd.members.find? (fun m => m.rank == bits (cmdWord c 128) 19 0)).map (·.modId) else some (streamHome s f id)
      match mid with
      | none => .next (finish s f 1 seq sBadPacket 0)
      | some m =>
        if m = s.glb.moduleId then .next (streamCmdAt s f f seq opc (cmdDurable c) (cmdWord c))
        else .next (forwardCmd s f seq m c)

/-- STREAM_OPEN (R192). -/
def execStreamOpen (f seq : Nat) (s : State) : Out := streamCmd s f seq 0x22
/-- STREAM_APPEND (R192). -/
def execStreamAppend (f seq : Nat) (s : State) : Out := streamCmd s f seq 0x23
/-- STREAM_PAUSE (R192, R214). -/
def execStreamPause (f seq : Nat) (s : State) : Out := streamCmd s f seq 0x24
/-- STREAM_RESUME (R192). -/
def execStreamResume (f seq : Nat) (s : State) : Out := streamCmd s f seq 0x25
/-- STREAM_CANCEL (R192, R209). -/
def execStreamCancel (f seq : Nat) (s : State) : Out := streamCmd s f seq 0x26
/-- STREAM_CLOSE (R192, R201). -/
def execStreamClose (f seq : Nat) (s : State) : Out := streamCmd s f seq 0x27

-- rings (R210–R212, R280)

/-- A span of device virtual addresses lies in one HOST range with the right asked for. -/
def hostSpan (p : Part) (va len : Nat) (write : Bool) : Bool :=
  match findRange p va with
  | some r => r.kind == 2 && (if write then r.w else r.r) && decide (va + len ≤ (r.base + r.len) * 4096)
  | none => false

/-- A control write to host memory named by a device virtual address that is translated (R212, R455). -/
def hostVaWrite (s : State) (n va : Nat) (bs : List Byte) : State :=
  match translate s n va true with
  | .host addr pv pasid =>
    let f := (hostFunc s n).getD n
    let raw := (findRange (partOf s n) va).map (fun r => hostAddr r va)
    hostPost s f { hostWrite s f addr bs with pasid := if pv then some pasid else none, translated := atsOn s f, raw }
  | _ => s

/-- Control writes to host memory by the sequencer can go, or wait for a translation, or are refused at the first that has none. -/
def hostReady (s : State) (n : Nat) (spans : List (Nat × Nat)) : State × Option (Nat × ReadRes) :=
  let s := spans.foldl (fun s x => translateSpan s .ss n x.1 x.2 true ownWork) s
  (s, spans.findSome? (fun x => (writeRefused s .ss n x.1 x.2).map (fun r => (x.1, r))))

/-- PIDX of a ring written again where that is due and its address is translated (R214). -/
def ringIndex (s : State) (n ring : Nat) : State :=
  let r := ringOf s n ring
  if !r.again then s
  else match hostReady s n [(r.pidxAddr, 8)] with
    | (s, none) => modRing (hostVaWrite s n r.pidxAddr (natBytes 8 r.p)) n ring (fun x => { x with again := false })
    | (s, some _) => s

/-- What a member knows of a ring, for the day on which it becomes the front (R264; log 33). -/
def ringTold (s : State) (n i m : Nat) : State :=
  let r := ringOf s n i
  sendControl s n m i ctlRing (2 ^ 8 + r.log2) ([r.base, r.pidxAddr, r.cidxAddr].flatMap (natBytes 8))

/-- RING_CREATE (R210). -/
def execRingCreate (f seq : Nat) (s : State) : Out :=
  pfCommand s f 1 seq 0x20 (fun c n =>
    let i := bits (cmdWord c 16) 5 0
    let log2 := bits (cmdWord c 16) 12 8
    let base := cmdWord c 24
    let p := partOf s n
    if log2 < 8 || log2 > 20 || base % 4096 ≠ 0 || !hostSpan p base (32 * 2 ^ log2) true || cmdWord c 32 % 8 ≠ 0 || cmdWord c 40 % 8 ≠ 0 ||
       !hostSpan p (cmdWord c 32) 8 true || !hostSpan p (cmdWord c 40) 8 false then finish s f 1 seq sBadPacket 0
    else if (ringOf s n i).created then finish s f 1 seq sRefused 0
    else
      let r : Ring := { created := true, base, log2, pidxAddr := cmdWord c 32, cidxAddr := cmdWord c 40 }
      let s := modRing s n i (fun _ => r)
      let s := (otherMembers s n).foldl (fun s m => ringTold s n i m) s
      finish s f 1 seq sOk 0)

/-- RING_DESTROY (R210): refused while any stream that is not FREE names the ring. -/
def execRingDestroy (f seq : Nat) (s : State) : Out :=
  pfCommand s f 1 seq 0x21 (fun c n =>
    let i := bits (cmdWord c 16) 5 0
    if !(ringOf s n i).created || (partOf s n).str.streams.any (fun x => x.2.state != .free && x.2.ring == i) ||
       (partOf s n).str.away.any (fun x => x.2.1 == i + 1) then finish s f 1 seq sRefused 0
    else
      let s := modRing s n i (fun _ => {})
      let s := (otherMembers s n).foldl (fun s m => sendControl s n m i ctlRing 0 []) s
      finish s f 1 seq sOk 0)

/-- The PHASE of record `i` in its place (R212). -/
def phasedRecord (r : Ring) (i : Nat) (bs : List Byte) : List Byte :=
  let ph := (i / 2 ^ r.log2) % 2 = 0
  bs.take 3 ++ [if ph then (bs.getD 3 0#8) ||| 1#8 else bs.getD 3 0#8] ++ bs.drop 4

/-- Records written in ring order from index P on. -/
def writeRecords (n ring : Nat) (s : State) (l : List (Nat × Nat × List Byte)) : State :=
  l.foldl (fun s x =>
    let r := ringOf s n ring
    let s := hostVaWrite s n (r.base + 32 * (r.p % 2 ^ r.log2)) (phasedRecord r r.p x.2.2)
    let s := modRing s n ring (fun y => { y with p := y.p + 1 })
    let dg := crc64Run (tabGet freshDigest (partOf s n).str.delivered x.1).2 (bareRecord x.2.2)
    modStr s n (fun t => { t with delivered := tabSet freshDigest t.delivered x.1 (x.2.1, dg) })) s

/-- DELIVERED_SEQ advances at the stream's home (R212). -/
def markDelivered (s : State) (n id seq : Nat) : State :=
  if streamHome s n id = s.glb.moduleId then modStream s n id (fun x => if x.state = .free then x else { x with deliveredSeq := Nat.max x.deliveredSeq seq })
  else sendControl s n (streamHome s n id) id ctlDelivered seq []

/-- RING_RECORDS_PUBLISH (R212, R213, R280): records in order while places are free and older ones are journalled as delivered, then PIDX,
then DELIVERED_SEQ and the DELIVERY entry. Nothing is published before every address is translated (R167); a refused one loses the context (R109). PIDX
alone is written where it is due again (R214). -/
def execRingRecordsPublish (n ring : Nat) (s : State) : Out :=
  let r := ringOf s n ring
  let k := Nat.min r.waiting.length (Nat.min (2 ^ r.log2 - (r.p - r.c)) (r.pj + 2 ^ r.log2 - r.p))
  let spans := (List.range k).map (fun i => (r.base + 32 * ((r.p + i) % 2 ^ r.log2), 32)) ++ [(r.pidxAddr, 8)]
  if !r.created || !(partOf s n).vd.front || !streamsRun (partOf s n) then .next s
  else if k = 0 then .next (ringIndex s n ring)
  else match hostReady s n spans with
  | (s, some (va, q)) => .next (engineFails s n none 14 va q)
  | (s, none) =>
    let l := r.waiting.take k
    let s := modRing (writeRecords n ring s l) n ring (fun y => { y with waiting := y.waiting.drop k, again := false })
    let s := hostVaWrite s n r.pidxAddr (natBytes 8 (r.p + k))
    let ids := (l.map (·.1)).eraseDups
    let s := ids.foldl (fun s id => markDelivered s n id (tabGet freshDigest (partOf s n).str.delivered id).1) s
    let body := [BitVec.ofNat 64 ring, BitVec.ofNat 64 (r.p + k), BitVec.ofNat 64 ids.length] ++ ids.flatMap (fun id =>
      let d := tabGet freshDigest (partOf s n).str.delivered id
      [BitVec.ofNat 64 id, BitVec.ofNat 64 d.1, digestOf d.2])
    let durable := ids.any (isDurable (partOf s n))
    let s := journalise s n 65 0 durable { plainItem jDelivery 0 0 0 with body, durable }
    .next (entrySettle s n ((partOf s n).journal.nextJseq - 1))

/-- CIDX_POLL (R212): a count beyond P or below the one already read is ignored and logged. -/
def execCidxPoll (n ring : Nat) (value : W64) (s : State) : Out :=
  let r := ringOf s n ring
  if !r.created || !(partOf s n).vd.front then .next s
  else if value.toNat > r.p || value.toNat < r.c then
    .next (event s 3 1 5 0 8 14 (some n) none [BitVec.ofNat 64 ring, value, 0])
  else
    let s := modRing s n ring (fun y => { y with c := value.toNat })
    .next (if value.toNat > r.c then wakeOutput (ringServe s n ring) n ring else s)

-- handoff (R270)

/-- The words of a stream's slot (R189), its page list, and what the sequencer keeps beside it: drafts and the spill image. A TRANSFER carries them (the
layout is the model's, log 33). -/
def slotWords (id : Nat) (x : Stream) : List W64 :=
  let code : Nat := match x.state with
    | .free => 0 | .prefill => 1 | .ready => 2 | .scheduled => 3 | .waitKv => 4 | .waitOutput => 5 | .paused => 6 | .spilled => 7 | .done => 8 | .faulted => 9
  ([2 ^ 60 + code * 2 ^ 56 + x.specGen % 256 * 2 ^ 48 + x.draftMax * 2 ^ 43 + x.prio * 2 ^ 40 + b2n x.keep * 2 ^ 39 + id,
    x.ring * 2 ^ 58 + x.nextSeq, x.graph * 2 ^ 48 + x.deliveredSeq, x.position * 2 ^ 32 + x.limit, x.lastToken * 2 ^ 32 + x.pages.length,
    x.gver * 2 ^ 52 + x.kvList, x.seed.toNat, x.temp * 2 ^ 48 + x.topP * 2 ^ 32 + x.topK * 2 ^ 16, x.stop0 * 2 ^ 32 + x.stop1, x.reqTag.toNat, x.prompt,
    x.promptLen * 2 ^ 32 + x.prefilled, x.lastStep, x.endStatus * 2 ^ 56 + x.spill, 0, 0] ++ x.pages ++
    [x.ndraft, x.drafts.length] ++ x.drafts ++ [x.spilled, x.imageBad.length] ++ x.imageBad ++ (pieces 8 x.image).map bytesNat).map (BitVec.ofNat 64)

/-- The stream that a TRANSFER's words describe (R189, R191). -/
def slotOfWords (w : List W64) : Stream :=
  let g (i : Nat) : Nat := (w.getD i 0).toNat
  let st : StreamState := match bits (g 0) 59 56 with
    | 0 => .free | 1 => .prefill | 2 => .ready | 3 => .scheduled | 4 => .waitKv | 5 => .waitOutput | 6 => .paused | 7 => .spilled | 8 => .done | _ => .faulted
  let pages := (w.drop 16).take (bits (g 4) 31 0)
  let more := w.drop (16 + pages.length)
  let drafts := (more.drop 2).take (more.getD 1 0).toNat
  let spill := more.drop (2 + drafts.length)
  let bad := (spill.drop 2).take (spill.getD 1 0).toNat
  { state := st, specGen := bits (g 0) 55 48, draftMax := bits (g 0) 47 43, prio := bits (g 0) 42 40, keep := bitOf (g 0) 39
    ring := bits (g 1) 63 58, nextSeq := bits (g 1) 47 0, graph := bits (g 2) 63 48, deliveredSeq := bits (g 2) 47 0
    position := bits (g 3) 63 32, limit := bits (g 3) 31 0, lastToken := bits (g 4) 63 32, gver := bits (g 5) 63 52, kvList := bits (g 5) 51 0
    seed := w.getD 6 0, temp := bits (g 7) 63 48, topP := bits (g 7) 47 32, topK := bits (g 7) 31 16, stop0 := bits (g 8) 63 32, stop1 := bits (g 8) 31 0
    reqTag := w.getD 9 0, prompt := bits (g 10) 51 0, promptLen := bits (g 11) 63 32, prefilled := bits (g 11) 31 0, lastStep := g 12
    endStatus := bits (g 13) 63 56, spill := bits (g 13) 51 0, pages := pages.map (·.toNat)
    ndraft := (more.getD 0 0).toNat, drafts := drafts.map (·.toNat), spilled := (spill.getD 0 0).toNat, imageBad := bad.map (·.toNat)
    image := (spill.drop (2 + bad.length)).flatMap (fun x => natBytes 8 x.toNat) }

/-- A stream's TRANSFER to its new owner, once it is in no step (R270 phase 1). -/
def sendTransfer (n : Nat) (s : State) (h : Nat × Nat × Nat × Bool) : State :=
  let x := streamOf s n h.1
  if h.2.2.2 || h.2.2.1 = s.glb.moduleId || x.state = .scheduled then s
  else
    let p := partOf s n
    let items := p.journal.home.filter (fun it => it.stream == h.1)
    let slot := slotWords h.1 x
    let pay := natBytes 8 p.vd.vdid ++ natBytes 8 h.1 ++ natBytes 8 h.2.1 ++ natBytes 8 h.2.2.1 ++ natBytes 8 slot.length ++
      slot.flatMap (fun w => natBytes 8 w.toNat) ++ items.flatMap itemBytes
    let s := sendAtlas s h.2.2.1 atlTransfer items.length pay
    modStr s n (fun t => { t with handoff := t.handoff.map (fun y => if y.1 = h.1 then (y.1, y.2.1, y.2.2.1, true) else y) })
def sendTransfers (s : State) (n : Nat) : State := (partOf s n).str.handoff.foldl (sendTransfer n) s

end Sys2Proof.Machine
end

