-- ==== Sys2Proof/Machine/Compose.lean ====
section
/-! DEFINITION. Composition of virtual devices: descriptors, admission, reservations, building and changing partitions, release, capacity (R256–R264, R273, R274, R285, R457). -/

namespace Sys2Proof.Machine

-- descriptors (R257)

/-- An entry of a composition descriptor. -/
structure Entry where
  modId : Nat
  partner : Nat
  partnerValid : Bool
  portA : Bool
  portB : Bool
  standby : Bool
  compute : Nat
  memory : Nat
  links : Nat
  /-- per compute die, cache granules then scratchpad granules -/
  llm : List Nat
  guar : List Nat
  linkGuar : Nat
  /-- reserved bits are zero -/
  clean : Bool
  deriving DecidableEq, Repr

def entryOf (w : Nat → Nat) : Entry :=
  { modId := bits (w 0) 19 0, partner := bits (w 0) 39 20, partnerValid := bitOf (w 0) 40, portA := bitOf (w 0) 41, portB := bitOf (w 0) 42
    standby := bitOf (w 0) 43, compute := w 1
    memory := (List.range 6).foldl (fun a i => a + w (2 + i) * 2 ^ (64 * i)) 0
    links := bits (w 8) 23 0
    llm := (List.range 8).map (fun i => bits (w 9) (8 * i + 7) (8 * i))
    guar := (List.range 8).map (fun i => bits (w (10 + i / 4)) (16 * (i % 4) + 15) (16 * (i % 4)))
    linkGuar := bits (w 12) 15 0
    clean := decide (w 0 < 2 ^ 44) && decide (w 8 < 2 ^ 24) && decide (w 12 < 2 ^ 16) && decide (w 13 = 0) && decide (w 14 = 0) && decide (w 15 = 0) }

def descWord (words : List W64) (i : Nat) : Nat := (words.getD i 0).toNat
def descCount (words : List W64) : Nat := bits (descWord words 0) 15 0
def descVdid (words : List W64) : Nat := bits (descWord words 1) 23 0
def descEntries (words : List W64) : List Entry := (List.range (descCount words)).map (fun i => entryOf (fun j => descWord words (8 + 16 * i + j)))

/-- Slices of an entry, numbered as ATL_SLICE numbers them (R291). -/
def entrySlices (e : Entry) : List Nat := bitList 64 e.compute ++ (bitList 384 e.memory).map (64 + ·) ++ (bitList 24 e.links).map (448 + ·)

/-- The place of the first element that satisfies a test. -/
def firstAt {α : Type} (l : List α) (p : Nat → α → Bool) : Option Nat :=
  (((List.range l.length).zip l).find? (fun x => p x.1 x.2)).map (·.1)

/-- The descriptor error of an operation, with its ENTRY (R258, R263): `op` as in ATL_CTL. -/
def descError (op : Nat) (words : List W64) : Option Nat :=
  let w := descWord words
  let es := descEntries words
  if bits (w 0) 63 60 ≠ 1 || descCount words = 0 || descCount words > 4096 || bits (w 0) 59 16 ≠ 0 || w 1 ≥ 2 ^ 24 || w 2 ≠ 0 ||
     w 4 ≠ 0 || w 5 ≠ 0 || w 6 ≠ 0 || w 7 ≠ 0 || (op = 1 && w 1 ≠ 0) then some 0xFFFF
  else firstAt es (fun i e =>
    !e.clean || (e.standby && (i == 0 || (es.take i).any (·.standby))) || (es.take i).any (fun f => f.modId == e.modId) ||
    (List.range 4).any (fun d => decide (e.llm.getD (2 * d) 0 + e.llm.getD (2 * d + 1) 0 > 128)) ||
    (op == 5 && !(entrySlices e).isEmpty))

-- reservations (R258, R259)

/-- Granules of a die that no partition holds, lowest index first. -/
def freeGranules (s : State) (d : Nat) : List Nat := ((List.range 128).map (128 * d + ·)).filter (fun i => !(granuleOf s i).valid)
/-- Granules of a die that reservations hold. -/
def reservedGranules (s : State) (d : Nat) : Nat := (s.atl.reserved.map (fun r => r.2.2.getD (2 * d) 0 + r.2.2.getD (2 * d + 1) 0)).sum

/-- The local partition of a virtual device that is not released. -/
def livePart (s : State) (vdid : Nat) : Option Nat := (partOfVdid s vdid).filter (fun n => vdid != 0 && !(partOf s n).vd.released)

/-- A link slice must run at P3 (R296). -/
def linkUsable (s : State) (k : Nat) : Bool := let l := linkOf s k; !(linkUp l && l.rev != 3)

/-- The carve-out after the slices join holds the areas of its partition (R172): counts of memory slices, scratchpad granules and clusters. -/
def areasFit (s : State) (n : Option Nat) (slices granules : List Nat) : Bool :=
  let mem := (((slices.filter isMemory).map (fun k => chanPages - 16 * ((chanOf s (k - 64)).retired.filter (fun q => decide (q < 32576))).length)).sum) +
    granulePages * (granules.getD 1 0 + granules.getD 3 0 + granules.getD 5 0 + granules.getD 7 0)
  let cl := (slices.filter isCompute).length
  match n with
  | none => decide (areaPages cl ≤ mem)
  | some n => decide (savePages * cl ≤ mem + freePages s n)

/-- What refuses a reservation on this module, as a REASON of R290: slices or granules not free, the rules of R18 and R296, the carve-out, a
partition here of another virtual device with the same VDID, one that the asking module has no part in (R457). -/
def reserveRefused (s : State) (origin vdid : Nat) (slices granules : List Nat) : Option Nat :=
  let n := livePart s vdid
  let other := n.any (fun n => !(partOf s n).vd.members.any (fun m => m.modId == origin))
  -- no virtual device on a KILLED module (R352)
  if s.nv.lifecycle = 3 || slices.any (fun k => decide (k ≥ 472) || (sliceOf s k).state != .free || (sliceOf s k).pending || (sliceOf s k).ret) ||
     (List.range 4).any (fun d => decide ((freeGranules s d).length < reservedGranules s d + granules.getD (2 * d) 0 + granules.getD (2 * d + 1) 0)) then some 1
  else if (n.isNone && (livePartsOf s).length ≥ 64) || slices.any (fun k => isLink k && !linkUsable s (k - 448)) then some 10
  else if !areasFit s n slices granules then some 5
  else if other then some 13
  else none

/-- A maintenance request took one of these slices while it was FREE, and came first: the assignment waits (R22; DESIGN CHOICE, log 162). -/
def behindTest (s : State) (slices : List Nat) : Bool := slices.any (fun k => (sliceOf s k).asked)

/-- Slices marked PENDING for the module that asked. -/
def reserveHere (s : State) (origin : Nat) (slices granules : List Nat) : State :=
  let s := slices.foldl (fun s k => markSlice s k (fun x => { x with pending := true })) s
  { s with atl := { s.atl with reserved := s.atl.reserved ++ [(origin, slices, granules)] } }

/-- The reservations of one asking module released. -/
def unreserve (s : State) (origin : Nat) : State :=
  let s := ((s.atl.reserved.filter (fun r => r.1 == origin)).flatMap (fun r => r.2.1)).foldl (fun s k => markSlice s k (fun x => { x with pending := false })) s
  { s with atl := { s.atl with reserved := s.atl.reserved.filter (fun r => r.1 != origin), waiting := s.atl.waiting.filter (fun w => w.1 != origin) } }

/-- A RESERVE answered (R259): the slices named are PENDING, or it is refused with a reason. -/
def answerReserve (s : State) (origin vdid : Nat) (slices granules : List Nat) : State :=
  match reserveRefused s origin vdid slices granules with
  | some r => sendAtlas s origin atlReserveAck r []
  | none => sendAtlas (reserveHere s origin slices granules) origin atlReserveAck 0 []

/-- RESERVE (R22, R259): this module marks the slices named PENDING and answers, or refuses with a reason; behind a maintenance request it waits. -/
def execReserve (origin vdid : Nat) (slices granules : List Nat) (s : State) : Out :=
  if behindTest s slices then .next { s with atl := { s.atl with waiting := s.atl.waiting ++ [(origin, vdid, slices, granules)] } }
  else .next (answerReserve s origin vdid slices granules)

/-- RESERVE requests whose slices are no longer in test are answered, oldest first (R22). -/
def retryReserves (s : State) : State :=
  (s.atl.waiting.filter (fun w => !behindTest s w.2.2.1)).foldl (fun s w =>
    answerReserve { s with atl := { s.atl with waiting := s.atl.waiting.erase w } } w.1 w.2.1 w.2.2.1 w.2.2.2) s

-- partitions built and changed (R23, R31, R160, R172, R258–R261, R264)

/-- One FREE slice assigned to a partition; its region becomes the partition's in the Legend. -/
def assignSlice (n : Nat) (s : State) (k : Nat) : State :=
  if (sliceOf s k).state ≠ .free then s
  else
    let s := moveSlice s k .assigned (fun x => { x with owner := n, pending := false, ret := false, gated := false })
    let secure := (partOf s n).vd.secure
    if isCompute k then
      -- a power-gated cluster wakes at the clock that was set meanwhile (R23, R413)
      let s := modCluster s k (fun c => { c with clkCur := c.clkNext.getD c.clkCur, clkNext := none })
      setLegend s (.cluster k) n rightsTenant secure secure
    else if isMemory k then setLegend s (.stack (k - 64)) n rightsTenant secure secure
    else s

/-- Granules of one die assigned: cache first, then scratchpad, lowest indices first (R258). -/
def assignGranules (n d cache scratch : Nat) (s : State) : State :=
  let l := (freeGranules s d).take (cache + scratch)
  let s := (l.take cache).foldl (fun s i => modGranule s i (fun _ => { valid := true, cache := true, part := n })) s
  (l.drop cache).foldl (fun s i =>
    setLegend (modGranule s i (fun _ => { valid := true, cache := false, part := n })) (.llm i) n rightsTenant (partOf s n).vd.secure (partOf s n).vd.secure) s

/-- Slices and granules join a partition, with a save area for each compute slice (R172, R261). -/
def joinSlices (s : State) (n : Nat) (slices granules : List Nat) : State :=
  let s := slices.foldl (assignSlice n) s
  let s := (List.range 4).foldl (fun s d => assignGranules n d (granules.getD (2 * d) 0) (granules.getD (2 * d + 1) 0) s) s
  let s := (slices.filter isCompute).foldl (fun s _ => (takeArea s n 1 savePages).getD s) s
  rescalePart s n

/-- The map entries of a partition's members, and the members that a map gives (R265). -/
def mapOf (vd : Vd) : List MapEntry :=
  vd.members.map (fun m => { rank := m.rank, modId := m.modId, compute := m.compute, memory := m.memory, links := m.links, present := m.present
                             partner := m.partner, partnerValid := m.partnerValid, standby := vd.standbyRank == some m.rank })
def membersOf (l : List MapEntry) : List Member :=
  l.map (fun e => { rank := e.rank, modId := e.modId, compute := e.compute, memory := e.memory, links := e.links
                    partner := e.partner, partnerValid := e.partnerValid, present := e.present })
/-- A map taken over: the members, and which of them is the standby front. -/
def takeMap (v : Vd) (l : List MapEntry) : Vd :=
  let sb := (l.find? (fun e => e.standby)).map (·.rank)
  { v with members := membersOf l, standbyRank := sb, standby := sb == some v.rank, nextRank := Nat.max v.nextRank (l.foldl (fun a e => Nat.max a (e.rank + 1)) 0) }
/-- A descriptor's entry as the map has it (R257). -/
def entryMap (rank : Nat) (e : Entry) : MapEntry :=
  { rank, modId := e.modId, compute := (bitList 64 e.compute).length, memory := (bitList 384 e.memory).length, links := (bitList 24 e.links).length, present := true
    partner := e.partner, partnerValid := e.partnerValid, standby := e.standby }

/-- The lowest local number free on the module (R31). -/
def freePart (s : State) : Option Nat := (List.range 64).find? (fun n => !(partOf s n).vd.used)

/-- The partition's journal partner, where it is no member of the virtual device. -/
def outerPartner (vd : Vd) : Option Nat :=
  if vd.partnerValid && !vd.members.any (fun m => m.modId == vd.partner) then some vd.partner else none

/-- Tenant key generations sent to the Cartouche of another module (R360; the packet's form is the model's, log 33). -/
def sendKeys (s : State) (n mid : Nat) : State :=
  let p := partOf s n
  sendAtlas s mid atlKeys p.vd.vdid (natBytes 8 p.keys.newest ++ natBytes 8 p.keys.older)
/-- The keys of a virtual device erased at a journal partner (R360). -/
def eraseKeysAt (s : State) (vdid mid : Nat) : State := sendAtlas s mid atlKeys vdid (natBytes 8 0 ++ natBytes 8 0)
/-- Key generations arriving at this module (R360): in the bank of a member's partition, or of a journal partner; none erase them. -/
def takeKeys (s : State) (vdid newest older : Nat) : State :=
  match partOfVdid s vdid with
  | some n => modPart s n (fun p => { p with keys := { p.keys with newest, older } })
  | none =>
    let l := s.sec.partnerKeys.filter (fun k => k.1 != vdid)
    { s with sec := { s.sec with partnerKeys := if newest = 0 then l else l ++ [(vdid, newest, older)] } }
/-- An acknowledgement of a rotation's new generation (R364 step 1). -/
def keysHeld (s : State) (vdid mid : Nat) : State :=
  match partOfVdid s vdid with
  | some n => modPart s n (fun p => { p with keys := { p.keys with rotating := p.keys.rotating.map (fun r => (r.1, r.2.filter (· != mid))) } })
  | none => s

/-- The older generation goes everywhere, once every member's sweep has ended (R364 step 4). -/
def eraseOld (s : State) (n : Nat) : State :=
  let p := partOf s n
  if p.keys.older = 0 || p.keys.sweeping || p.keys.sweepLeft ≠ [] || p.keys.rotator.isSome then s
  else
    let s := modPart s n (fun p => { p with keys := { p.keys with older := 0 } })
    let to_ := ((p.vd.members.filter (fun m => m.modId != s.glb.moduleId)).map (·.modId)) ++ (outerPartner p.vd).toList
    to_.foldl (fun s m => sendKeys s n m) s

/-- A sweep begins on a member that another module's rotation has given a new generation, and ends with the older one (R364). -/
def sweepTold (s : State) (vdid from_ : Nat) : State :=
  match partOfVdid s vdid with
  | some n => modPart s n (fun p => { p with keys := { p.keys with sweeping := p.keys.older != 0, rotator := if p.keys.older = 0 then none else some from_ } })
  | none => s

/-- A member's sweep has ended. -/
def sweepEnded (s : State) (vdid mid : Nat) : State :=
  match partOfVdid s vdid with
  | some n => eraseOld (modPart s n (fun p => { p with keys := { p.keys with sweepLeft := p.keys.sweepLeft.filter (· != mid) } })) n
  | none => s

/-- A virtual device becomes secure (R347): WORLD and LOCK on every Legend entry of its partition here. -/
def lockHere (s : State) (n : Nat) : State :=
  let s := modVd s n (fun v => { v with secure := true })
  -- debug of a SECURED module ends when a secure tenant is resident (R353)
  { s with sec := { s.sec with debug := if s.nv.lifecycle = 2 then [] else s.sec.debug, legend := tabMapV (fun _ e => if e.valid && e.owner == n then { e with world := true, lock := true } else e) s.sec.legend } }

/-- A VDID has moved to another partition (R339): the FROZEN source no longer belongs to it. -/
def vdidMoved (s : State) (vdid : Nat) : State :=
  (tabKeys (fun n p => decide (n < 64) && p.vd.used && p.vd.vdid == vdid && p.ctx.state == .frozen && !p.vf.restored) s.parts).foldl
    (fun s n => modVf s n (fun v => { v with moved := true })) s

/-- What a new partition is told: VDID, edition, rank, the front's and the standby's rank, the store, its descriptor entry and the map. -/
structure NewPart where
  vdid : Nat
  edition : Nat
  rank : Nat
  frontRank : Nat
  standby : Option Nat
  store : Nat
  entry : Entry
  map : List MapEntry
  deriving DecidableEq, Repr

/-- A partition built on this module (R258–R260, R172, R325): slices assigned, areas placed, the VF enabled. The local number and the state. -/
def buildPart (s : State) (b : NewPart) : Option (Nat × State) :=
  match freePart s with
  | none => none
  | some n =>
    let e := b.entry
    let vd : Vd := { used := true, vdid := b.vdid, edition := b.edition, rank := b.rank, nextRank := b.map.length
                     front := b.rank == b.frontRank, standby := some b.rank == b.standby, frontRank := b.frontRank, standbyRank := b.standby
                     partner := e.partner, partnerValid := e.partnerValid, store := b.store, members := membersOf b.map
                     memGuar := e.guar, linkGuar := e.linkGuar, memScale := 128, linkScale := 128 }
    let vf : Vf := { exposedA := e.portA, exposedB := e.portB, active := !e.portA && e.portB }
    let keys : Keys := if b.rank = b.frontRank then { newest := 1 } else {}
    let s := { s with parts := tabSet {} s.parts n { vd, vf, keys } }
    -- areas are placed once the slices are there
    let s := (entrySlices e).foldl (assignSlice n) s
    let s := (takeArea s n 0 translationPages).getD s
    let s := joinSlices s n (entrySlices e) e.llm
    some (n, { s with atl := { s.atl with event := s.atl.event ||| 1 } })

/-- A slice leaves its partition toward FREE (R22, R262): it is RELEASING, and its Legend entry lets only the erase in (R350). -/
def releaseSlice (s : State) (k : Nat) : State :=
  let s := if (sliceOf s k).state = .assigned then moveSlice s k .releasing id else s
  if isCompute k then eraseLegend s (.cluster k)
  else if isMemory k then eraseLegend s (.stack (k - 64))
  else s

/-- A granule erased and unassigned (R147) (DEDUCED, log 116). -/
def freeGranule (s : State) (i : Nat) : State :=
  let s := clearSpan s (granulePa i) 0x100000
  let s := modGranule s i (fun _ => {})
  { s with sec := { s.sec with legend := tabSet {} s.sec.legend (keyGranule i) {} } }

/-- Save areas of compute slices that have left (R172). -/
def dropSaveAreas (s : State) (n k : Nat) : State :=
  modPart s n (fun p =>
    let base (a : Nat × Nat × Nat × Nat) : Nat := chanPa a.2.1 + a.2.2.1 * 4096
    let used (a : Nat × Nat × Nat × Nat) : Bool := p.saves.any (fun r => r.place.any (fun x => decide (base a ≤ x) && decide (x < base a + a.2.2.2 * 4096)))
    let save := p.carve.areas.filter (fun a => a.1 == 1)
    let gone := (save.filter (fun a => !used a)).take k
    { p with carve := { p.carve with areas := p.carve.areas.filter (fun a => !gone.contains a) } })

/-- A partition's slices all go toward FREE, its granules are freed, marks of its taken slices are cleared (R263, R264). -/
def releaseHere (s : State) (n : Nat) : State :=
  let ks := assignedOf s n (fun _ => true)
  let s := ks.foldl releaseSlice s
  let s := (tabKeys (fun _ g => g.valid && g.part == n) s.granules).foldl freeGranule s
  let s := (tabKeys (fun _ x => x.ret && x.owner == n) s.slices).foldl (fun s k => markSlice s k (fun x => { x with ret := false, owner := 0 })) s
  modVd s n (fun v => { v with released := true })

/-- A slice taken for maintenance (R264, R394): HELD with a return mark. -/
def takeSlice (s : State) (n k : Nat) : State :=
  if (sliceOf s k).state ≠ .assigned then s
  else
    let s := moveSlice s k .held (fun x => { x with ret := true, owner := n })
    let s := if isCompute k then dropSaveAreas s n 1 else s
    rescalePart s n

-- memory lost and given back (R281)

/-- Every line or word of a physical span written poisoned. -/
def poisonSpan (s : State) (pa len : Nat) : State :=
  if isStack pa then
    let s := dropLines s pa len
    { s with lmeta := (List.range (len / 128)).foldl (fun t i => tabMod freshMeta t (pa / 128 + i) (· ||| 1#16)) s.lmeta }
  else { s with poison := (List.range (len / 64)).foldl (fun t i => tabSet false t (pa / 64 + i) true) s.poison }

/-- Ranges of a partition that lie on lost targets: their lines are written poisoned, and those with a backing source are refilled from it by
LINE_REPAIR as R392 has it (R281). -/
def spoilTargets (s : State) (n : Nat) (lost : Nat × Nat → Bool) : State :=
  let p := partOf s n
  let s := (p.ranges.filter (fun r => r.kind == 1 && r.modId == s.glb.moduleId)).foldl (fun s r =>
    (r.targets.filter (fun t => lost (t.1, t.2.2))).foldl (fun s t => poisonSpan s (targetPa t.1 t.2.2 + r.offset * 4096) (r.len / r.n * 4096)) s) s
  (devicePages p).foldl (fun s pa => if lost (0, pa / 0x80000000) then poisonSpan s pa 65536 else s) s

-- map changes applied (R261–R264, R267, R270, R386)

/-- An entry of a map changed. -/
def modEntry (vd : Vd) (rank : Nat) (f : Member → Member) : Vd := { vd with members := vd.members.map (fun m => if m.rank = rank then f m else m) }

/-- The owner of a stream's role changes at an edition (R270): the old owner hands it over, the new one waits for it. -/
def ownerChange (s : State) (n stream mid : Nat) : State :=
  let me := s.glb.moduleId
  let e := (partOf s n).vd.edition
  let old := streamHome s n stream
  if old = mid then s
  else if old = me then sendTransfers (modStr s n (fun t => { t with handoff := t.handoff ++ [(stream, e, mid, false)] })) n
  else if mid = me then modStr s n (fun t => { t with handoff := t.handoff ++ [(stream, e, mid, false)] })
  else modStr s n (fun t => { t with tokens := tabSet (0, 0) t.tokens stream (e, mid) })

/-- A partner named for a partition (R263): a new partner receives the whole home journal (R286). -/
def setPartner (s : State) (n partner : Nat) (valid : Bool) : State :=
  let old := (partOf s n).vd
  let s := modVd s n (fun v => { v with partner, partnerValid := valid })
  let new := outerPartner (partOf s n).vd
  let others := (partOf s n).vd.members.any (fun x => x.rank != old.rank && x.partnerValid && x.partner == old.partner)
  let s := match outerPartner old with | some m => if new = some m || others then s else eraseKeysAt s old.vdid m | none => s
  let s := match new with | some m => sendKeys s n m | none => s
  if valid && (!old.partnerValid || old.partner ≠ partner) then (partOf s n).journal.home.foldl (fun s it => sendMirror s n it) s else s

/-- A change applied to a partition on this module. -/
def applyChange (s : State) (n : Nat) : MapChange → State
  | .grow l g => joinSlices s n l g
  | .leaving l => modVd s n (fun v => { v with leaving := v.leaving ++ l.filter (fun k => (sliceOf s k).state == .assigned && (sliceOf s k).owner == n) })
  | .remove l =>
    let ks := l.filter (fun k => (sliceOf s k).state == .assigned && (sliceOf s k).owner == n)
    let s := dropSaveAreas (ks.foldl releaseSlice s) n (ks.filter isCompute).length
    let s := modVd s n (fun v => { v with leaving := v.leaving.filter (fun k => !l.contains k) })
    if (assignedOf s n (fun _ => true)).isEmpty then releaseHere s n else rescalePart s n
  | .take k => takeSlice s n k
  -- after maintenance nothing lies on the slice; after a stack failure its ranges still do (R387)
  | .back k => if (sliceOf s k).ret && (sliceOf s k).owner = n then spoilTargets (joinSlices s n [k] []) n (fun t => isMemory k && t.1 == 0 && t.2 == k - 64) else s
  | .guar m l p v => rescalePart (setPartner (modVd s n (fun x => { x with memGuar := m, linkGuar := l })) n p v) n
  | .front r => modVd s n (fun v => moveFront v r)
  | .absent r => modVd s n (fun v => modEntry v r (fun m => { m with present := false }))
  | .present r => modVd s n (fun v => modEntry v r (fun m => { m with present := true }))
  | .owner x m => ownerChange s n x m
  | .map l => modVd s n (fun v => takeMap v l)
  | .counts m c y l => modVd s n (fun v => setCounts v (.counts m c y l))
  | .only m c => if m = s.glb.moduleId then applyChange s n c else s
  | .seq a b => applyChange (applyChange s n a) n b
  | .other => s

/-- A change that VD_GROW, VD_SHRINK or VD_SET makes: it moves a TDI in CONFIG_LOCKED or RUN to ERROR (R336). -/
def composes : MapChange → Bool
  | .grow _ _ => true
  | .leaving _ => true
  | .guar _ _ _ _ => true
  | .map _ => true
  | .only _ c => composes c
  | .seq a b => composes a || composes b
  | _ => false
def noteComposed (s : State) (n : Nat) (ch : MapChange) : State := if composes ch then tdiError s n else s
/-- A change brought to the arbiter: made there at the next edition, or when the one in preparation is settled; asked of the arbiter's module
where that is another (R265, R272). -/
def commitChange (s : State) (n : Nat) (ch : MapChange) : State :=
  let vd := (partOf s n).vd
  if !isArbiter vd then
    sendAtlas s (arbiterModule vd) atlChange vd.vdid (natBytes 8 vd.vdid ++ natBytes 8 0 ++ (changeNats ch).flatMap (natBytes 8))
  else if vd.preparing.isSome then modVd s n (fun v => { v with queued := v.queued ++ [ch] })
  else applyChange (bumpEdition (noteComposed s n ch) n ch) n ch

-- ATL_CTL operations (R256, R258, R259, R289, R290)

/-- An operation of ATL_CTL that the row stands for is the one that GO has started. -/
def atlStarted (s : State) (op : Nat) : Bool := s.atl.go && s.atl.op == op

/-- GO cleared with STATUS and ATL_RESULT. -/
def atlDone (s : State) (status reason entry : Nat) : State :=
  { s with atl := { s.atl with go := false, status, reason, entry, creating := none, given := 0, settling := none } }
/-- The same for an operation that names its virtual device and local number. -/
def atlOk (s : State) (vdid n : Nat) : State := { atlDone s sOk 0 0xFFFF with atl := { (atlDone s sOk 0 0xFFFF).atl with vdid := vdid, local_ := n } }

/-- A module that holds a valid ID, as far as this module's tables show (R310, R313). -/
def knownModule (s : State) (m : Nat) : Bool := s.glb.idValid && decide (m < 2 ^ 18) && (m == s.glb.moduleId || (routeMask s m).isSome)

/-- Bandwidth limits of an entry (R273): the nominal ones, and for this module's slices the shares of their capacity now. -/
def admitted (s : State) (e : Entry) : Bool :=
  decide (e.guar.sum ≤ 540) && decide (e.linkGuar ≤ 1408) &&
  (e.modId != s.glb.moduleId ||
    ((bitList 384 e.memory).all (fun g => decide (e.guar.sum ≤ chanShare (chanOf s g).capacity)) &&
     (bitList 24 e.links).all (fun k => let l := linkOf s k; !linkUp l || decide (e.linkGuar ≤ linkShare l.width))))

/-- The slices that a descriptor names on this module. -/
def ownSlices (s : State) (es : List Entry) : List Nat := (es.filter (fun e => e.modId == s.glb.moduleId)).flatMap entrySlices

/-- The first check of VD_CREATE that fails here, as REASON and ENTRY (R35, R258). -/
def createRefused (s : State) (es : List Entry) : Option (Nat × Nat) :=
  let me := s.glb.moduleId
  let many := decide (es.length > 1)
  let e0 : Entry := es.headD (entryOf (fun _ => 0))
  let local_ : Option Nat := (es.find? (fun e => e.modId == me)).bind (fun e => reserveRefused s me 0 (entrySlices e) e.llm)
  let mine := (firstAt es (fun _ e => e.modId == me)).getD 0
  let try_ (reason : Nat) (i : Option Nat) : Option (Nat × Nat) := i.map (fun i => (reason, i))
  (if local_ = some 1 then some (1, mine) else none).or <|
  (try_ 10 (firstAt es (fun _ e => (many && e.links == 0) || (e.modId == me && local_ == some 10)))).or <|
  (if es.all (fun e => e.compute == 0) || es.all (fun e => e.memory == 0) then some (10, 0xFFFF) else none).or <|
  (try_ 6 (firstAt es (fun i e => (i == 0 && (e.modId != me || e.compute == 0 || !(e.portA || e.portB))) || (e.standby && !(e.portA || e.portB))))).or <|
  (if many && !s.glb.idValid then some (4, mine) else none).or <|
  (try_ 4 (firstAt es (fun _ e => many && !knownModule s e.modId))).or <|
  (try_ 8 (firstAt es (fun _ e => e.partnerValid && (e.partner == e.modId || !knownModule s e.partner)))).or <|
  (if local_ = some 5 then some (5, mine) else none).or <|
  (if e0.modId = me then try_ 2 (firstAt es (fun _ e => !admitted s e)) else none)

/-- A RESERVE message: the slices and granules asked of a module (its form is the model's, log 33). -/
def sendReserve (vdid : Nat) (s : State) (e : Entry) : State :=
  let sl := entrySlices e
  sendAtlas s e.modId atlReserve vdid (natBytes 8 sl.length ++ sl.flatMap (natBytes 8) ++ e.llm.flatMap (natBytes 8))

/-- Every reservation of the operation released, and the operation refused (R259). -/
def refuseCreate (s : State) (reason entry : Nat) : State :=
  let me := s.glb.moduleId
  let others : List Nat := match s.atl.creating with | some (w, _) => ((descEntries w).map (fun (e : Entry) => e.modId)).filter (fun m => m != me) | none => []
  let s := unreserve s me
  let s := others.foldl (fun s m => sendAtlas s m atlCancel 0 []) s
  atlDone s sRefused reason entry

/-- A VDID that the root may assign: not zero, not reserved, not live and not doubled (R31, R314, R457). Which one is the root's own choice
(DESIGN CHOICE, log 12). -/
def freshVdid (s : State) : Nat :=
  let used := s.fab.vdids ++ s.fab.doubled ++ (livePartsOf s).map (fun n => (partOf s n).vd.vdid)
  let c := Config.vdidPick s.draws % 2 ^ 24
  if c ≠ 0 && c ≠ 0xFFFFFF && !used.contains c then c
  else ((List.range (used.length + 1)).map (· + 1)).find? (fun v => !used.contains v) |>.getD 1
def assignVdid (s : State) : Nat × State :=
  let v := freshVdid s
  (v, { s with fab := { s.fab with vdids := s.fab.vdids ++ [v] }, draws := s.draws + 1 })

/-- COMMIT to a module whose partition is new (R259 step 4; log 33). -/
def sendCommit (s : State) (b : NewPart) (raw : List W64) : State :=
  sendAtlas s b.entry.modId atlCommit b.vdid
    (natBytes 8 b.vdid ++ natBytes 8 b.edition ++ natBytes 8 b.rank ++ natBytes 8 b.frontRank ++ natBytes 8 (match b.standby with | some r => r + 1 | none => 0) ++
     natBytes 8 b.store ++ raw.flatMap (fun w => natBytes 8 w.toNat) ++ (changeNats (.map b.map)).flatMap (natBytes 8))

def rawEntry (words : List W64) (i : Nat) : List W64 := (words.drop (8 + 16 * i)).take 16

/-- Edition 1 committed on every module (R259 steps 4 and 5, R260). -/
def createCommit (s : State) (words : List W64) (vdid : Nat) : State :=
  let me := s.glb.moduleId
  let es := descEntries words
  let map := ((List.range es.length).zip es).map (fun x => entryMap x.1 x.2)
  let sb := firstAt es (fun _ e => e.standby)
  let part (i : Nat) (e : Entry) : NewPart := { vdid, edition := 1, rank := i, frontRank := 0, standby := sb, store := descWord words 3, entry := e, map }
  let s := unreserve s me
  let s := ((List.range es.length).zip es).foldl (fun s x => if x.2.modId = me then s else sendCommit s (part x.1 x.2) (rawEntry words x.1)) s
  match buildPart s (part 0 (es.headD (entryOf (fun _ => 0)))) with
  | none => refuseCreate s 10 0
  | some (n, s) =>
    let to_ := (((es.map (·.modId)) ++ (es.filter (·.partnerValid)).map (·.partner)).eraseDups).filter (· != me)
    atlOk (to_.foldl (fun s m => sendKeys s n m) s) vdid n

/-- A creation goes on when every RESERVE has been answered and the root has a VDID for it (R259 step 4, R314). A module without a root, having no
valid ID, assigns its own (DESIGN CHOICE, log 56) (DEDUCED, log 102). -/
def createStep (s : State) : State :=
  match s.atl.creating with
  | some (words, []) =>
    if s.atl.op ≠ 1 then s
    else if s.atl.given ≠ 0 then createCommit s words s.atl.given
    else if isRoot s then
      (if s.fab.collected then (let a := assignVdid s; createCommit a.2 words a.1) else s)
    else if !s.glb.idValid then (let a := assignVdid s; createCommit a.2 words a.1)
    else if s.fab.rootValid then sendAtlas s s.fab.rootId atlVdidAsk 0 []
    else s
  | _ => s

/-- The root gives a VDID to a module that has asked for one. -/
def giveVdid (s : State) (mid : Nat) : State :=
  let a := assignVdid s
  sendAtlas a.2 mid atlVdidGive a.1 []

/-- A VDID is free (R263, R457): of two virtual devices that hold it, the first to go leaves it with the other. -/
def vdidGone (s : State) (v : Nat) : State :=
  if s.fab.doubled.contains v then { s with fab := { s.fab with doubled := s.fab.doubled.filter (· != v) } }
  else { s with fab := { s.fab with vdids := s.fab.vdids.filter (· != v) } }

/-- ROOT_VDID_COLLECT (R259, R314, R457): the live VDIDs of the part, one entry for each virtual device; a VDID that two virtual devices hold is
assigned neither again. Creations that waited go on. -/
def execRootVdidCollect (vdids : List Nat) (s : State) : Out :=
  if !isRoot s || s.fab.collected then .next s
  else
    let own := (livePartsOf s).map (fun n => (partOf s n).vd.vdid)
    let asks := s.fab.asks
    let s := { s with fab := { s.fab with vdids := (own ++ vdids).eraseDups, doubled := repeated vdids, collected := true, asks := [] } }
    .next (createStep (asks.foldl giveVdid s))

/-- VD_CREATE (R22, R256–R260, R273): behind a maintenance request on a slice it names here, it waits. -/
def execVdCreate (words : List W64) (s : State) : Out :=
  if !atlStarted s 1 then .next s
  else if s.atl.creating.isSome then .next (createStep s)
  else match descError 1 words with
    | some i => .next (atlDone s sBadPacket 0 i)
    | none =>
      let es := descEntries words
      if behindTest s (ownSlices s es) then .next s
      else match createRefused s es with
      | some (r, i) => .next (atlDone s sRefused r i)
      | none =>
        let me := s.glb.moduleId
        let s := (es.filter (fun e => e.modId == me)).foldl (fun s e => reserveHere s me (entrySlices e) e.llm) s
        let others := es.filter (fun e => e.modId != me)
        let s := { s with atl := { s.atl with creating := some (words, others.map (·.modId)) } }
        .next (createStep (others.foldl (sendReserve 0) s))

-- growth (R261)

/-- The front partition that a VD_GROW, VD_SHRINK, VD_RELEASE or VD_SET acts on, or REASON (R256). -/
def frontFor (s : State) (vdid : Nat) : Except Nat Nat :=
  match livePart s vdid with
  | none => .error 11
  | some n => if (partOf s n).vd.front then .ok n else .error 6

/-- This VDID is held by two virtual devices, and the module would hold parts of both (R457). -/
def doubledOn (s : State) (vdid : Nat) (m : Nat) : Bool := s.fab.doubled.contains vdid && m != s.glb.moduleId

/-- The checks of R258 for slices added to a virtual device. -/
def growRefused (s : State) (n : Nat) (es : List Entry) : Option (Nat × Nat) :=
  let me := s.glb.moduleId
  let vd := (partOf s n).vd
  let mods := (vd.members.map (·.modId) ++ es.map (·.modId)).eraseDups
  let many := decide (mods.length > 1)
  let isNew (e : Entry) : Bool := !vd.members.any (fun m => m.modId == e.modId)
  let local_ : Option Nat := (es.find? (fun e => e.modId == me)).bind (fun e => reserveRefused s me vd.vdid (entrySlices e) e.llm)
  let mine := (firstAt es (fun _ e => e.modId == me)).getD 0xFFFF
  let try_ (reason : Nat) (i : Option Nat) : Option (Nat × Nat) := i.map (fun i => (reason, i))
  let myLinks := !(assignedOf s n isLink).isEmpty || es.any (fun e => e.modId == me && e.links != 0)
  (if local_ = some 1 then some (1, mine) else none).or <|
  (try_ 10 (firstAt es (fun _ e => (many && isNew e && e.links == 0) || (e.modId == me && local_ == some 10)))).or <|
  (if many && !myLinks then some (10, mine) else none).or <|
  (try_ 6 (firstAt es (fun _ e => e.standby && !(e.portA || e.portB)))).or <|
  (try_ 4 (firstAt es (fun _ e => many && !knownModule s e.modId))).or <|
  (try_ 8 (firstAt es (fun _ e => e.partnerValid && (e.partner == e.modId || !knownModule s e.partner)))).or <|
  (if local_ = some 5 then some (5, mine) else none).or <|
  (try_ 2 (firstAt es (fun _ e => !admitted s e))).or <|
  (try_ 13 (firstAt es (fun _ e => doubledOn s vd.vdid e.modId || (e.partnerValid && doubledOn s vd.vdid e.partner))))

/-- The map with entries added or enlarged (R260, R261). An entry of a module that holds a partition speaks of the added slices alone (DESIGN CHOICE,
log 168). -/
def grownMap (vd : Vd) (es : List Entry) : List MapEntry :=
  let old := (mapOf vd).map (fun m => match es.find? (fun e => e.modId == m.modId) with
    | some e => { m with compute := m.compute + (bitList 64 e.compute).length, memory := m.memory + (bitList 384 e.memory).length, links := m.links + (bitList 24 e.links).length }
    | none => m)
  let new := es.filter (fun e => !vd.members.any (fun m => m.modId == e.modId))
  old ++ ((List.range new.length).zip new).map (fun x => entryMap (vd.nextRank + x.1) x.2)

/-- The copies that a new partition of a running virtual device receives (R112, R160, R187, R204, R240, R347). -/
def sendCopies (n : Nat) (s : State) (m : Nat) : State :=
  let p := partOf s n
  let s := sendKeys s n m
  let s := if p.ctx.state = .none then s else sendControl s n m 0 ctlContext p.ctx.tag []
  let s := if p.vd.secure then sendAtlas s m atlLock p.vd.vdid [] else s
  let s := p.ranges.foldl (fun s r => sendControl s n m 0 ctlRange 0 (rangeBytes r)) s
  let s := p.colls.foldl (fun s c => if c.2.registered then tellHandle s n m c.1 else s) s
  let s := (tabKeys (fun _ g => g.versions != []) p.graphs).foldl (fun s h => sendGraph n h s m) s
  let s := p.str.rings.foldl (fun s r => if r.2.created then ringTold s n r.1 m else s) s
  -- a standby front's copy of the fences (R236)
  if standbyModule p.vd = m && p.vd.standbyRank.isSome && p.fences.exist then sendFenceTable s n m else s

/-- The growth committed at one new edition. -/
def growCommit (s : State) (n : Nat) (words : List W64) : State :=
  let me := s.glb.moduleId
  let vd := (partOf s n).vd
  let es := descEntries words
  let map := grownMap vd es
  let e' := (vd.edition + 1) % 2 ^ 32
  let ch := es.foldl (fun c e =>
    if vd.members.any (fun m => m.modId == e.modId) then MapChange.seq c (.only e.modId (.grow (entrySlices e) e.llm)) else c) (.map map)
  let s := unreserve s me
  let s := commitChange s n ch
  let new := ((List.range es.length).zip es).filter (fun x => !vd.members.any (fun m => m.modId == x.2.modId))
  let s := new.foldl (fun s x =>
    let r := ((map.find? (fun m => m.modId == x.2.modId)).map (·.rank)).getD 0
    let sb := (map.find? (fun m => m.standby)).map (·.rank)
    sendCopies n (sendCommit s { vdid := vd.vdid, edition := e', rank := r, frontRank := vd.frontRank, standby := sb, store := vd.store, entry := x.2, map } (rawEntry words x.1)) x.2.modId) s
  { s with atl := { s.atl with creating := none, settling := some (vd.vdid, e'), vdid := vd.vdid, local_ := n } }

/-- A growth goes on when every RESERVE has been answered. -/
def growStep (s : State) : State :=
  match s.atl.creating with
  | some (words, []) =>
    (match livePart s (descVdid words) with
     | some n => if (partOf s n).vd.preparing.isSome then s else growCommit s n words
     | none => refuseCreate s 11 0xFFFF)
  | _ => s

/-- A new entry is marked STANDBY where the virtual device would then have two standby fronts (R258; DESIGN CHOICE, log 168). -/
def secondStandby (s : State) (vdid : Nat) (es : List Entry) : Option Nat :=
  match livePart s vdid with
  | none => none
  | some n =>
    let vd := (partOf s n).vd
    firstAt es (fun _ e => e.standby && vd.standbyRank.isSome && !vd.members.any (fun m => m.modId == e.modId))

/-- VD_GROW (R22, R256, R261, R457). -/
def execVdGrow (words : List W64) (s : State) : Out :=
  if !atlStarted s 2 || s.atl.settling.isSome then .next s
  else if s.atl.creating.isSome then .next (growStep s)
  else match (descError 2 words).or (secondStandby s (descVdid words) (descEntries words)) with
    | some i => .next (atlDone s sBadPacket 0 i)
    | none => match frontFor s (descVdid words) with
      | .error r => .next (atlDone s sRefused r 0xFFFF)
      | .ok n =>
        let es := descEntries words
        if behindTest s (ownSlices s es) then .next s
        else match growRefused s n es with
        | some (r, i) => .next (atlDone s sRefused r i)
        | none =>
          let me := s.glb.moduleId
          let s := (es.filter (fun e => e.modId == me)).foldl (fun s e => reserveHere s me (entrySlices e) e.llm) s
          let others := es.filter (fun e => e.modId != me)
          let s := { s with atl := { s.atl with creating := some (words, others.map (·.modId)) } }
          .next (growStep (others.foldl (sendReserve (descVdid words)) s))

/-- An answer to RESERVE (R259): the last one lets the operation go on; a refusal ends it. -/
def reserveAnswer (s : State) (mid reason : Nat) : State :=
  match s.atl.creating with
  | none => s
  | some (words, left) =>
    if !left.contains mid then s
    else if reason ≠ 0 then refuseCreate s reason ((firstAt (descEntries words) (fun _ e => e.modId == mid)).getD 0xFFFF)
    else
      let s := { s with atl := { s.atl with creating := some (words, left.filter (· != mid)) } }
      if s.atl.op = 1 then createStep s else growStep s

/-- RESERVE_TIMEOUT (R258, R259): a module that has not answered in time; every reservation is released, the operation is refused with REASON 3 (DESIGN CHOICE, log 91). -/
def execReserveTimeout (s : State) : Out :=
  match s.atl.creating with
  | some (words, m :: ms) =>
    .next (refuseCreate s 3 ((firstAt (descEntries words) (fun _ e => (m :: ms).contains e.modId)).getD 0xFFFF))
  | _ => .next s

-- shrinking, release, set (R262, R263)

/-- The map without the slices that leave; a partition that leaves entirely is gone from it. -/
def shrunkMap (vd : Vd) (es : List Entry) : List MapEntry :=
  ((mapOf vd).map (fun m => match es.find? (fun e => e.modId == m.modId) with
    | some e => { m with compute := m.compute - (bitList 64 e.compute).length, memory := m.memory - (bitList 384 e.memory).length, links := m.links - (bitList 24 e.links).length }
    | none => m)).filter (fun m => m.modId == ((vd.members.find? (fun x => x.rank == vd.frontRank)).map (·.modId)).getD 0 || !(m.compute == 0 && m.memory == 0 && m.links == 0))

/-- What refuses a VD_SHRINK (R258, R262) (DEDUCED, log 103). -/
def shrinkRefused (s : State) (n : Nat) (es : List Entry) : Option (Nat × Nat) :=
  let me := s.glb.moduleId
  let vd := (partOf s n).vd
  let mine := (firstAt es (fun _ e => e.modId == me)).getD 0xFFFF
  let sl := ((es.find? (fun e => e.modId == me)).map entrySlices).getD []
  let kept := (assignedOf s n (fun _ => true)).filter (fun k => !sl.contains k)
  let out (p : MapEntry → Nat) (q : Entry → Nat) : Nat :=
    ((mapOf vd).map (fun m => p m - ((es.find? (fun e => e.modId == m.modId)).map q).getD 0)).sum
  let left := shrunkMap vd es
  (match firstAt es (fun _ e => !vd.members.any (fun m => m.modId == e.modId)) with | some i => some (11, i) | none => none).or <|
  (if sl.any (fun k => !((sliceOf s k).state == SliceState.assigned && (sliceOf s k).owner == n)) then some (11, mine) else none).or <|
  (if !sl.isEmpty && kept.isEmpty then some (6, mine) else none).or <|
  (if out (·.memory) (fun e => (bitList 384 e.memory).length) = 0 || out (·.compute) (fun e => (bitList 64 e.compute).length) = 0 then some (9, 0xFFFF) else none).or <|
  (if left.length > 1 && !sl.isEmpty && !kept.any isLink then some (10, mine) else none).or <|
  (if left.length > 1 then (firstAt es (fun _ e => left.any (fun m => m.modId == e.modId && m.links == 0))).map (fun i => (10, i)) else none)

/-- The slices of this module that a VD_SHRINK takes. -/
def shrinkSlices (s : State) (es : List Entry) : List Nat := ((es.find? (fun e => e.modId == s.glb.moduleId)).map entrySlices).getD []

/-- Whether the virtual device has room for what lies on this module's leaving slices (R180, R262); the marks themselves come with the edition. -/
def shrinkRoom (s : State) (n : Nat) (es : List Entry) : State × Option Bool :=
  let old := (partOf s n).vd.leaving
  let r := canEvacuate (modVd s n (fun v => { v with leaving := old ++ shrinkSlices s es })) n (((shrinkSlices s es).filter isMemory).map (· - 64))
  (modVd r.1 n (fun v => { v with leaving := old }), r.2)

/-- Streams homed on partitions that leave entirely are handed to the lowest-ranked remaining one (R262). -/
def handoffChanges (s : State) (n : Nat) (map : List MapEntry) : List MapChange :=
  let low := (map.foldl (fun a m => match a with
    | none => some (m.rank, m.modId)
    | some x => if m.rank < x.1 then some (m.rank, m.modId) else some x) (none : Option (Nat × Nat))).elim 0 (·.2)
  (((partOf s n).str.tokens.map (·.1)).filter (fun x => !map.any (fun m => m.modId == streamHome s n x))).map (fun x => MapChange.owner x low)

/-- VD_SHRINK (R256, R262): first the slices are marked leaving; when they are clear on every member and that edition is settled, the same operation removes
them at a second edition. -/
def execVdShrink (words : List W64) (s : State) : Out :=
  if !atlStarted s 3 || s.atl.settling.isSome then .next s
  else match descError 3 words with
    | some i => .next (atlDone s sBadPacket 0 i)
    | none => match frontFor s (descVdid words) with
      | .error r => .next (atlDone s sRefused r 0xFFFF)
      | .ok n =>
        let es := descEntries words
        let vd := (partOf s n).vd
        if vd.preparing.isSome then .next s
        else
          let each (f : Entry → MapChange) (base : MapChange) : MapChange := es.foldl (fun c e => MapChange.seq c (.only e.modId (f e))) base
          let wait (s : State) : State := { s with atl := { s.atl with settling := some (vd.vdid, (vd.edition + 1) % 2 ^ 32), vdid := vd.vdid, local_ := n } }
          if s.atl.creating.isNone then
            (match shrinkRefused s n es with
             | some (r, i) => .next (atlDone s sRefused r i)
             | none => match shrinkRoom s n es with
             | (s, some false) => .next (atlDone s sRefused 7 ((firstAt es (fun _ e => e.modId == s.glb.moduleId)).getD 0xFFFF))
             | (s, none) => .next s
             | (s, some true) =>
               let hand := (handoffChanges s n (shrunkMap vd es)).foldl MapChange.seq .other
               let s := commitChange s n (.seq (each (fun e => .leaving (entrySlices e)) .other) hand)
               .next { s with atl := { s.atl with
                 creating := some (words, []), clearing := ((es.map (·.modId)).filter (· != s.glb.moduleId)).map (fun m => (vd.vdid, m)) } })
          else if !leavingClear s n || !(partOf s n).str.handoff.isEmpty ||
            vd.members.any (fun m => m.present && s.atl.clearing.contains (vd.vdid, m.modId)) then .next s
          else
            let s := commitChange s n (each (fun e => .remove (entrySlices e)) (.map (shrunkMap vd es)))
            .next { wait s with atl := { (wait s).atl with creating := none, clearing := [] } }

/-- A released partition whose slices are all FREE is gone; the front's module is told, or the release ends (R263). -/
def releaseSettle (s : State) (n : Nat) : State :=
  let vd := (partOf s n).vd
  if !vd.released || s.slices.any (fun (x : Nat × Slice) => x.2.owner == n && (x.2.state == .assigned || x.2.state == .releasing || x.2.state == .scrubbing)) then s
  else
    let s := match outerPartner vd with | some m => eraseKeysAt s vd.vdid m | none => s
    let s := { s with parts := tabSet {} s.parts n {} }
    match vd.reportTo with
    | some m => sendAtlas s m atlFreed vd.vdid []
    | none => s

/-- The VDID is free once every module has reported (R263). -/
def releaseStep (s : State) : State :=
  match s.atl.releasing with
  | some (vdid, []) =>
    if (partOfVdid s vdid).isSome && !s.atl.keepVdid then s
    else
      let keep := s.atl.keepVdid
      let s := { s with atl := { s.atl with releasing := none, keepVdid := false } }
      if keep then atlOk s vdid 0
      else
        let s := vdidGone s vdid
        let s := if isRoot s || !s.fab.rootValid then s else sendAtlas s s.fab.rootId atlGoneVdid vdid []
        atlOk s vdid 0
  | _ => s

/-- VD_RELEASE (R256, R263): of a virtual device whose context is NONE. -/
def execVdRelease (words : List W64) (s : State) : Out :=
  if !atlStarted s 4 || s.atl.releasing.isSome then .next s
  else match descError 4 words with
    | some i => .next (atlDone s sBadPacket 0 i)
    | none => match frontFor s (descVdid words) with
      | .error r => .next (atlDone s sRefused r 0xFFFF)
      | .ok n =>
        if (partOf s n).ctx.state ≠ .none then .next (atlDone s sRefused 12 0xFFFF)
        else
          let vdid := (partOf s n).vd.vdid
          let others := otherMembers s n
          let s := others.foldl (fun s m => sendAtlas s m atlRelease vdid []) s
          let s := { s with atl := { s.atl with releasing := some (vdid, others), vdid := vdid, local_ := n, keepVdid := (partOf s n).vf.moved } }
          .next (releaseStep (releaseSettle (releaseHere s n) n))

/-- VD_SET (R263, R273, R457): guarantees and partners at one new edition. -/
def execVdSet (words : List W64) (s : State) : Out :=
  if !atlStarted s 5 || s.atl.settling.isSome then .next s
  else match descError 5 words with
    | some i => .next (atlDone s sBadPacket 0 i)
    | none => match frontFor s (descVdid words) with
      | .error r => .next (atlDone s sRefused r 0xFFFF)
      | .ok n =>
        let es := descEntries words
        let vd := (partOf s n).vd
        let me := s.glb.moduleId
        let full (e : Entry) : Entry := if e.modId = me then { e with memory := maskOf (memSlices s n), links := maskOf ((assignedOf s n isLink).map (· - 448)) } else e
        let try_ (reason : Nat) (i : Option Nat) : Option (Nat × Nat) := i.map (fun i => (reason, i))
        let bad := (try_ 11 (firstAt es (fun _ e => !vd.members.any (fun m => m.modId == e.modId)))).or <|
          (try_ 8 (firstAt es (fun _ e => e.partnerValid && (e.partner == e.modId || !knownModule s e.partner)))).or <|
          (try_ 2 (firstAt es (fun _ e => !admitted s (full e)))).or <|
          (try_ 13 (firstAt es (fun _ e => e.partnerValid && doubledOn s vd.vdid e.partner)))
        match bad with
        | some (r, i) => .next (atlDone s sRefused r i)
        | none =>
          if vd.preparing.isSome then .next s
          else
            let named := (mapOf vd).map (fun m => match es.find? (fun e => e.modId == m.modId) with
              | some e => { m with partner := e.partner, partnerValid := e.partnerValid }
              | none => m)
            let ch := es.foldl (fun c e => MapChange.seq c (.only e.modId (.guar e.guar e.linkGuar e.partner e.partnerValid))) (.map named)
            let s := commitChange s n ch
            .next { s with atl := { s.atl with settling := some (vd.vdid, (vd.edition + 1) % 2 ^ 32), vdid := vd.vdid, local_ := n } }

-- maintenance returns and capacity (R264, R274)

/-- SLICE_RETURN (R264): a slice with a return mark that has reached FREE goes back to its partition at a new edition; the mark is cleared when
the partition has gone. -/
def execSliceReturn (slice : Nat) (s : State) : Out :=
  let x := sliceOf s slice
  if x.state ≠ .free || !x.ret then .next s
  else if !(partOf s x.owner).vd.used || (partOf s x.owner).vd.released then .next (markSlice s slice (fun y => { y with ret := false, owner := 0 }))
  else if (partOf s x.owner).vd.preparing.isSome then .next s
  else .next (commitChange s x.owner (.seq (.only s.glb.moduleId (.back slice))
      (ownCounts (markSlice s slice (fun y => { y with state := .assigned })) x.owner)))

/-- CAPACITY_CHANGE (R274): a channel's derated capacity, in tenths of GB/s, or a link's as its lanes give it; guarantees are scaled or
restored. -/
def execCapacityChange (resource capacity : Nat) (s : State) : Out :=
  if isMemory resource then .next (rescale (modChan s (resource - 64) (fun c => { c with capacity := capacity })))
  else if isLink resource then .next (rescale s)
  else .next s

end Sys2Proof.Machine
end

