-- ==== Sys2Proof/Machine/Editions.lean ====
section
/-! DEFINITION. Edition changes and the handoff of request state (R265–R272, R384). -/

namespace Sys2Proof.Machine

/-- Packets held for an edition that the module now applies, or that are given up. -/
def heldOf (s : State) (n : Nat) : List Packet := (partOf s n).vd.heldPkts
def clearHeld (s : State) (n : Nat) : State := modVd s n (fun v => { v with heldPkts := [] })

/-- Edition E + 1 applied on a member: the change, the window for E, the acknowledgement (R267 step 2). -/
def applyPrepare (s : State) (n edition : Nat) (ch : MapChange) : State :=
  let vd := (partOf s n).vd
  let to_ := arbiterModule vd
  let s := applyChange (applyEdition (noteComposed s n ch) n edition) n ch
  sendAtlas s to_ atlPrepareAck 0 (natBytes 8 vd.vdid ++ natBytes 8 edition)

/-- An acknowledgement reaches the arbiter. -/
def prepareAcked (s : State) (n mid edition : Nat) : State :=
  modVd s n (fun v => match v.preparing with
    | some (e, left, ch) => if e = edition then { v with preparing := some (e, left.filter (· != mid), ch) } else v
    | none => v)

/-- A composition operation that waits for an edition ends when it is settled. -/
def settleAtl (s : State) (n vdid edition : Nat) : State := if s.atl.settling = some (vdid, edition) then atlOk s vdid n else s

/-- SETTLE (R265, R267): the arbiter settles an edition after the last acknowledgement and starts the change that waits next; at another module
SETTLE arrives. -/
def execSettle (vdid edition : Nat) (s : State) : Out :=
  match partOfVdid s vdid with
  | none => .next s
  | some n =>
    let vd := (partOf s n).vd
    match vd.preparing with
    | some (e, [], _) =>
      if e ≠ edition then .next s
      else
        let s := modVd s n (fun v => { v with preparing := none })
        let s := (otherMembers s n).foldl (fun s m => sendAtlas s m atlSettle 0 (natBytes 8 vdid ++ natBytes 8 edition)) s
        let s := settleAtl s n vdid edition
        (match vd.queued with
         | [] => .next s
         | ch :: rest => .next (commitChange (modVd s n (fun v => { v with queued := rest })) n ch))
    | some _ => .next s
    | none => .next (if vd.edition = edition then settleAtl s n vdid edition else s)

/-- OVERLAP_WINDOW_CLOSE (R266, R267): 100 µs after SETTLE. -/
def execOverlapWindowClose (vdid : Nat) (s : State) : Out :=
  match partOfVdid s vdid with
  | none => .next s
  | some n => if (partOf s n).vd.preparing.isSome then .next s else .next (modVd s n (fun v => { v with overlap := false }))

/-- EDITION_ACK_TIMEOUT (R267, R384): a module that has not acknowledged within 2 ms is a failed part. -/
def execEditionAckTimeout (vdid modId : Nat) (s : State) : Out :=
  match partOfVdid s vdid with
  | none => .next s
  | some n =>
    match (partOf s n).vd.preparing with
    | some (_, left, _) => if left.contains modId then .next (memberFails s n modId) else .next s
    | none => .next s

/-- ARBITER_TAKEOVER (R272): the arbiter's module has failed; the next lowest rank declares it. -/
def execArbiterTakeover (vdid failed : Nat) (s : State) : Out :=
  match partOfVdid s vdid with
  | none => .next s
  | some n =>
    if failed = s.glb.moduleId || failed ≠ arbiterModule (partOf s n).vd then .next s
    else .next (memberFails (modVd s n (fun v => { v with preparing := none })) n failed)

-- handoff of request state (R269–R271)

/-- Entries taken into the home journal of a partition under its own numbers and a token's edition, each mirrored to the partner. -/
def adoptItems (s : State) (n edition : Nat) (items : List JournalItem) : State :=
  items.foldl (fun s it =>
    let j := (partOf s n).journal.nextJseq
    let it := { it with jseq := j, edition, owner := s.glb.moduleId }
    let s := modPart s n (fun p => { p with journal := { p.journal with nextJseq := j + 1, home := journalAdd p.journal.home it } })
    if (partOf s n).vd.partnerValid then sendMirror s n it else s) s

/-- TRANSFER (R270 phase 2, R271): the new owner journals and mirrors the state, records the token and answers HELD; it serves after RELEASED. A
token of a later edition here wins. -/
def execTransfer (vdid : Nat) (stream edition owner : Nat) (slot : List W64) (items : List JournalItem) (s : State) : Out :=
  match partOfVdid s vdid with
  | none => .next s
  | some n =>
    let old := streamHome s n stream
    let t := tabGet (0, 0) (partOf s n).str.tokens stream
    if owner ≠ s.glb.moduleId || editionLater t.1 edition then .next s
    else
      let s := adoptItems s n edition items
      let s := modStr s n (fun x => { x with
        tokens := tabSet (0, 0) x.tokens stream (edition, owner)
        away := tabSet (0, 0) x.away stream (0, 0)
        handoff := x.handoff.filter (fun h => h.1 != stream) ++ [(stream, edition, owner, true)]
        streams := if slot = [] then x.streams else tabSet {} x.streams stream (slotOfWords slot) })
      .next (sendAtlas s old atlHeld 0 (natBytes 8 vdid ++ natBytes 8 stream ++ natBytes 8 edition ++ natBytes 8 owner))

/-- HELD (R270, R271): the old owner records the token, deletes its entries and their mirrors, discards its copy and answers RELEASED. -/
def execHeld (vdid stream edition owner : Nat) (s : State) : Out :=
  match partOfVdid s vdid with
  | none => .next s
  | some n =>
    if owner = s.glb.moduleId || !(partOf s n).str.handoff.contains (stream, edition, owner, true) then .next s
    else
      let vd := (partOf s n).vd
      let x := streamOf s n stream
      let s := modPart s n (fun p => { p with
        journal := { p.journal with home := p.journal.home.filter (fun it => it.stream != stream || it.typ == jDelivery) }
        str := { p.str with
          handoff := p.str.handoff.filter (fun h => h.1 != stream)
          tokens := tabSet (0, 0) p.str.tokens stream (edition, owner)
          away := tabSet (0, 0) p.str.away stream (if x.state = .free then (0, 0) else (x.ring + 1, x.graph))
          streams := tabSet {} p.str.streams stream {} } })
      let s := if vd.partnerValid then sendAtlas s vd.partner atlUnmirror 0 (natBytes 8 vdid ++ natBytes 8 stream) else s
      .next (sendAtlas s owner atlReleased 0 (natBytes 8 vdid ++ natBytes 8 stream ++ natBytes 8 edition))

/-- RELEASED (R270): the new owner starts serving. -/
def execReleased (vdid stream edition : Nat) (s : State) : Out :=
  match partOfVdid s vdid with
  | none => .next s
  | some n =>
    if (partOf s n).str.handoff.contains (stream, edition, s.glb.moduleId, true) then
      .next (modStr s n (fun t => { t with handoff := t.handoff.filter (fun h => h.1 != stream) }))
    else .next s

/-- The entries of a stream that an owner mirrored here go (R270), or all that it mirrored for a virtual device (R249). -/
def unmirror (s : State) (owner vdid stream : Nat) : State :=
  { s with atl := { s.atl with mirror := s.atl.mirror.filter (fun it =>
    !(it.owner == owner && it.vdid == vdid && (stream == allStreams || (it.stream == stream && it.typ != jDelivery)))) } }

end Sys2Proof.Machine
end

