-- ==== Sys2Proof/Machine/Sequencer.lean ====
section
/-! DEFINITION. The stream sequencer: selection, step descriptors, verdicts, spills and reloads (R190, R195–R209, R214). -/

namespace Sys2Proof.Machine

-- selection (R195)

/-- Effective priority (R195): 0 once a stream has waited longer than AGE. -/
def effPrio (s : State) (g : GenBlock) (x : Stream) : Nat := if s.pwr.meridian - x.lastStep > g.age * 1000 then 0 else x.prio

/-- Rank of a stream in the order of R195: effective priority, then LAST_STEP, then STREAM_ID, each ascending. -/
def streamKey (s : State) (g : GenBlock) (id : Nat) (x : Stream) : Nat := effPrio s g x * 2 ^ 84 + x.lastStep * 2 ^ 20 + id

/-- Streams of a graph version that satisfy a test, with their keys, in the order of R195. -/
def orderedStreams (s : State) (n h v : Nat) (g : GenBlock) (ok : Stream → Bool) : List Nat :=
  let l := (partOf s n).str.streams.filter (fun x => x.2.graph == h && x.2.gver == v && ok x.2 && !(partOf s n).str.handoff.any (fun y => y.1 == x.1))
  (sortNat (l.map (fun x => streamKey s g x.1 x.2))).map (· % 2 ^ 20)

/-- A selection in progress: the streams chosen and the budgets left. -/
structure Picking where
  chosen : List StepEntry := []
  ns : Nat
  nt : Nat
  deriving DecidableEq, Repr

/-- One stream considered (R195). -/
def pickOne (n : Nat) (g : GenBlock) (a : State × Picking) (id : Nat) : State × Picking :=
  let s := a.1
  let k := a.2
  let x := streamOf s n id
  if k.ns = 0 then a
  else
    let dec := x.state == .ready
    let d := if dec then Nat.min x.ndraft (Nat.min x.draftMax (x.limit - x.position - 1)) else 0
    let need := if dec then d + 1 else Nat.min (x.promptLen - x.prefilled) g.prefillChunk
    let recs := if dec then d + 2 else 2
    if need > k.nt then a
    else if ringFree (partOf s n).vd.front (ringOf s n x.ring) < recs then
      (ringAsk (modStream s n id (fun y => { y with state := .waitOutput })) n x.ring recs, k)
    else
      match kvCover s n id (x.position + need) g with
      | .wait s => (modStream s n id (fun y => { y with state := .waitKv }), k)
      -- the context is lost: nothing more is chosen
      | .fails s va r => (engineFails s n none 14 va r, { chosen := [], ns := 0, nt := 0 })
      | .done s =>
        let s := ringReserve s n x.ring recs
        let s := modStream s n id (fun y => { y with state := .scheduled, lastStep := s.pwr.meridian })
        let e : StepEntry := { stream := id, d, need, recs, decode := dec, specGen := x.specGen, position := x.position, before := x.lastStep }
        (s, { chosen := k.chosen ++ [e], ns := k.ns - 1, nt := k.nt - need })

-- step descriptors (R197)

/-- Bytes of a step's working area: descriptor, verdict table and draft lists of the largest step (placement within the range is not given;
DESIGN CHOICE, log 49). -/
def areaBytes (g : GenBlock) : Nat := 64 * (1 + g.streamsMax) + 320 * g.streamsMax

/-- The place of a new step's working area: the lowest free one that the first domain range holds, or a block of the primary pool where the graph has no
domain range (DESIGN CHOICE, log 49). -/
def placeArea (s : State) (n : Nat) (g : GenBlock) : Option (Nat × State) :=
  match g.domains with
  | b :: _ =>
    let len := (rangeOfBase (partOf s n) b 1).elim 0 (·.len)
    let free (i : Nat) : Bool := (i == 0 || decide ((i + 1) * areaBytes g ≤ len * 4096)) &&
      !(partOf s n).str.steps.any (fun x => x.2.descriptor == b * 4096 + i * areaBytes g)
    ((List.range 32).find? free).map (fun i => (b * 4096 + i * areaBytes g, s))
  | [] => takeBlock s n g (((List.range 31).find? (fun o => decide (12 ≤ o) && decide (areaBytes g ≤ 2 ^ o))).getD 30)

/-- A working area given back. -/
def giveArea (s : State) (n : Nat) (g : GenBlock) (area : Nat) : State := if g.domains = [] then giveBlock s n g area else s

/-- A step's working area released (R205). -/
def releaseArea (s : State) (n : Nat) (x : Step) : State :=
  match genAt (partOf s n) x.graph x.ver with
  | some g => giveArea s n g x.descriptor
  | none => s

def tableOf (g : GenBlock) (area : Nat) : Nat := area + 64 * (1 + g.streamsMax)
def draftsOf (g : GenBlock) (area i : Nat) : Nat := area + 64 * (1 + g.streamsMax) + 256 * g.streamsMax + 64 * i

/-- The header of a step descriptor (R197). -/
def headerBytes (step h v table : Nat) (es : List StepEntry) : List Byte :=
  natBytes 8 (2 ^ 60 + step % 2 ^ 48) ++ natBytes 8 es.length ++ natBytes 8 ((es.map (·.need)).sum) ++ natBytes 8 table ++
  natBytes 8 (h + v * 2 ^ 16) ++ List.replicate 24 0#8

/-- One stream's entry of a step descriptor (R197). -/
def entryBytes (x : Stream) (e : StepEntry) (draftList : Nat) : List Byte :=
  let kind := if e.decode then 0 else if x.prefilled + e.need < x.promptLen then 1 else 2
  natBytes 8 (e.stream + e.d * 2 ^ 32 + e.specGen * 2 ^ 40 + kind * 2 ^ 48) ++ natBytes 8 x.nextSeq ++ natBytes 8 (e.need * 2 ^ 32 + e.position) ++
  natBytes 8 (x.pages.length * 2 ^ 32 + x.lastToken) ++ natBytes 8 x.kvList ++ natBytes 8 x.seed.toNat ++
  natBytes 8 (if e.decode then draftList else x.prompt + 4 * x.prefilled) ++ natBytes 8 (x.temp * 2 ^ 48 + x.topP * 2 ^ 32 + x.topK * 2 ^ 16)

/-- The descriptor and the draft lists of a step, by address. -/
def descriptorWrites (s : State) (n step h v area : Nat) (g : GenBlock) (es : List StepEntry) : List (Nat × List Byte) :=
  let ies := (List.range es.length).zip es
  (area, headerBytes step h v (tableOf g area) es ++ ies.flatMap (fun x => entryBytes (streamOf s n x.2.stream) x.2 (draftsOf g area x.1))) ::
  ies.map (fun x => (draftsOf g area x.1, ((streamOf s n x.2.stream).drafts.take x.2.d).flatMap (natBytes 4)))

/-- A step launched: its descriptor written into the domain, its nodes ready to start (R195, R197). -/
def stepLaunch (s : State) (n h v area : Nat) (g : GenBlock) (es : List StepEntry) : State :=
  let step := (partOf s n).str.nextStep
  match ssWrite s n (descriptorWrites s n step h v area g es) with
  | .wait s => engineFails s n none 14 area .fault
  | .fails s va r => engineFails s n none 14 va r
  | .done s =>
    modStr s n (fun t => { t with
      steps := tabSet { graph := 0, ver := 0, entries := [] } t.steps step { graph := h, ver := v, descriptor := area, table := tableOf g area, entries := es }
      nextStep := step + 1 })

/-- Free page numbers that a stream's reload could have: enough in reserve and allocator (R202). -/
def canReload (s : State) (n id : Nat) (g : GenBlock) : Bool :=
  let x := streamOf s n id
  decide ((takePages n x.graph g x.spilled s []).1.length = x.spilled)

/-- The rings of a partition's streams of a graph version. -/
def ringsOf (s : State) (n h v : Nat) : List Nat :=
  (((partOf s n).str.streams.filter (fun x => x.2.graph == h && x.2.gver == v)).map (fun x => x.2.ring)).eraseDups

/-- SELECT_STEP (R193, R195, R196, R202): streams join in order while the budgets last. A SPILLED stream that can be reloaded goes first, and a step
without a place for its working area waits. -/
def execSelectStep (n graph ver : Nat) (s : State) : Out :=
  let p := partOf s n
  match genAt p graph ver with
  | none => .next s
  | some g =>
    let running := (p.str.steps.filter (fun x => x.2.graph == graph && x.2.ver == ver)).length
    let order := orderedStreams s n graph ver g (fun x => x.cached && (x.state == .prefill || x.state == .ready))
    let spilled := orderedStreams s n graph ver g (fun x => x.state == .spilled)
    if !streamsRun p || running ≥ g.stepsInflight || order = [] || spilled.any (fun id => canReload s n id g) then .next s
    else match placeArea s n g with
    | none => .next s
    | some (area, s) =>
      let r := order.foldl (pickOne n g) (s, { ns := g.streamsMax, nt := g.tokensMax })
      let s := if r.2.chosen = [] then giveArea r.1 n g area else stepLaunch r.1 n graph ver area g r.2.chosen
      .next (noteStall (kvStalled p graph ver) ((ringsOf s n graph ver).foldl (fun s i => quotaBack s n i) s) n graph ver)

-- verdicts (R198, R205, R206)

/-- One entry of a verdict table (R198). -/
def verdictOf (bs : List Byte) : Verdict :=
  { k := leAt bs 0 1, count := leAt bs 1 1, ndraft := leAt bs 2 1
    tokens := (List.range 17).map (fun i => (leAt bs (8 + 8 * i) 4, leAt bs (12 + 8 * i) 2))
    drafts := (List.range 16).map (fun i => leAt bs (144 + 4 * i) 4) }

/-- A last prefill chunk, or a decode: it yields tokens. -/
def yields (x : Stream) (e : StepEntry) : Bool := e.decode || x.prefilled + e.need ≥ x.promptLen

/-- An entry that breaks no rule of R198. -/
def verdictLegal (x : Stream) (e : StepEntry) (v : Verdict) : Bool :=
  decide (v.k ≤ e.d) && v.count == (if yields x e then v.k + 1 else 0) && decide (v.ndraft ≤ 16)

/-- A graph error (R198, R374): the context is lost. -/
def graphError (s : State) (n : Nat) : State :=
  loseCtx (event s 3 4 6 sContextLost 8 14 (some n) none []) n sContextLost none 0 1 false

/-- The verdict message's part for one stream (R205). -/
def verdictItem (e : StepEntry) (v : Verdict) : VerdictItem :=
  { stream := e.stream, position := e.position, k := v.k, d := e.d, specGen := e.specGen }

/-- A member's share of a graph version's kernels is not empty (R90). -/
def runsTasks (vd : Vd) (v : GVersion) (rank : Nat) : Bool :=
  (v.opcs.zip v.params).any (fun x => x.1 == 0x30 &&
    (let l := launchOfWords { vd with rank } (paramWord x.2) { seq := none, node := none }; decide (l.lo < l.hi)))

/-- The other modules of a step's span (R205): those that hold a pool or a domain range, or run tasks of the step. -/
def spanOthers (s : State) (n : Nat) (v : GVersion) (g : GenBlock) : List Nat :=
  let p := partOf s n
  let rs := p.ranges.filter (fun r => g.pools.contains r.base || g.domains.contains r.base)
  (p.vd.members.filter (fun m => m.present && m.rank != p.vd.rank && (runsTasks p.vd v m.rank || rs.any (fun r => r.modId == m.modId)))).map (·.modId)

/-- A verdict message as it travels (R205; the layout is the model's, log 33). -/
def verdictBytes (items : List VerdictItem) : List Byte :=
  items.flatMap (fun i => natBytes 4 i.stream ++ natBytes 4 i.position ++ natBytes 1 i.k ++ natBytes 1 i.d ++ natBytes 1 i.specGen ++ natBytes 5 0)
def verdictsIn (bs : List Byte) : List VerdictItem :=
  (pieces 16 bs).map (fun b => { stream := leAt b 0 4, position := leAt b 4 4, k := leAt b 8 1, d := leAt b 9 1, specGen := leAt b 10 1 })

/-- SPEC_GEN as a verdict leaves it (R205). -/
def genAfter (i : VerdictItem) : Nat := if i.k < i.d then (i.specGen + 1) % 256 else i.specGen

/-- A module of the span other than the stream's home applies a verdict message, all of it, and acknowledges (R205); it counts it as applied too (R217, R378;
DEDUCED, log 169). -/
def verdictTold (s : State) (n src step : Nat) (items : List VerdictItem) : State :=
  let s := modStr s n (fun t => { t with verdicts := t.verdicts + 1, specGens := items.foldl (fun x i => tabSet 0 x i.stream (genAfter i)) t.specGens })
  sendControl (progress s n) n src step ctlVerdictAck 0 []

def modStep (s : State) (n k : Nat) (g : Step → Step) : State :=
  modStr s n (fun t => { t with steps := tabMapV (fun i x => if i = k then g x else x) t.steps })
def stepOf (s : State) (n k : Nat) : Option Step := ((partOf s n).str.steps.find? (fun x => x.1 == k)).map (·.2)

/-- The verdict message of a step; a stream that was being cancelled when it was sent has K = 0 (R209). -/
def stepItems (x : Step) : List VerdictItem :=
  (x.entries.zip x.verdicts).map (fun y => verdictItem y.1 y.2)

/-- What the message says for a stream: nothing is accepted of one that is being cancelled (R209), and of one that is regenerated no token beyond
the SEQ at which an entry stops it (R281 step 4; DEDUCED, log 130). -/
def sentVerdict (x : Stream) (v : Verdict) : Verdict :=
  if x.cancelling then { v with k := 0 }
  else match x.replayStop with
    | some (q, _) => if v.count > q - x.nextSeq then { v with k := q - x.nextSeq - 1, count := q - x.nextSeq, ndraft := 0 } else v
    | none => v

/-- STEP_TASKS_ENDED (R198, R205): the last task of the step has ended; the table is read and the verdict message goes to the span. `ext` holds
what memory outside the module returns for the table (DEDUCED, log 99). -/
def execStepTasksEnded (n step : Nat) (ext : List Byte) (s : State) : Out :=
  match stepOf s n step with
  | none => .next s
  | some x =>
    match gversionOf (partOf s n) x.graph x.ver with
    | none => .next s
    | some v =>
      if x.sent || x.nodes.length < v.opcs.length then .next s
      else if runStatus v.opcs.length x.nodes ≠ sOk then .next (graphError s n)
      else match engineRead s .ss ownWork n x.table (256 * x.entries.length) ext with
        | (s, .ok bs) =>
          let vs := (pieces 256 bs).map verdictOf
          if !(x.entries.zip vs).all (fun y => verdictLegal (streamOf s n y.1.stream) y.1 y.2) then .next (graphError s n)
          else
            let vs := (x.entries.zip vs).map (fun y => sentVerdict (streamOf s n y.1.stream) y.2)
            let others := match v.gen with | some g => spanOthers s n v g | none => []
            let s := modStep s n step (fun y => { y with verdicts := vs, sent := true, acksLeft := others })
            let items := stepItems { x with verdicts := vs }
            .next (others.foldl (fun s m => sendControl s n m (step % 2 ^ 32) ctlVerdict items.length (verdictBytes items)) s)
        | (s, r) => .next (engineFails s n none 14 x.table r)

/-- VERDICT_APPLY (R205): this module applies the whole message: retracted positions end their SPEC_GEN, the step's working areas are released. -/
def execVerdictApply (n step : Nat) (items : List VerdictItem) (s : State) : Out :=
  match stepOf s n step with
  | none => .next s
  | some x =>
    if !x.sent || x.applied || items ≠ stepItems x then .next s
    else
      let s := items.foldl (fun s i => if i.k < i.d then modStream s n i.stream (fun y => { y with specGen := (y.specGen + 1) % 256 }) else s) s
      .next (modStep (releaseArea s n x) n step (fun y => { y with applied := true }))

/-- Index of the first stop token among those emitted (R208). -/
def stopIndex (x : Stream) (toks : List (Nat × Nat)) : Option Nat :=
  toks.findIdx? (fun t => (t.1 == x.stop0 || t.1 == x.stop1) && t.1 != 0xFFFFFFFF)

/-- FLAGS of a token's record (R211). -/
def tokenFlags (seq : Nat) (last stop limit drafted : Bool) : Nat :=
  2 * b2n (seq == 1) + 4 * b2n last + 8 * b2n stop + 16 * b2n limit + 64 * b2n drafted

/-- One stream's part of a verdict acknowledged everywhere (R206, R208, R209, R211). LAST_TOKEN is the last of the COUNT tokens, a token behind a
stop token too (DEDUCED, log 124). -/
def commitStream (s : State) (n : Nat) (e : StepEntry) (v : Verdict) : State :=
  let x := streamOf s n e.stream
  let newPos := e.position + (if e.decode then v.k + 1 else e.need)
  let x1 : Stream := { x with position := newPos, prefilled := if e.decode then x.prefilled else x.prefilled + e.need }
  if x.cancelling then cancelStream (modStream (ringSettle s n x.ring e.recs 1) n e.stream (fun _ => x1)) n e.stream true
  else
    let toks := v.tokens.take v.count
    let stop := stopIndex x toks
    let out := match stop with | some i => toks.take (i + 1) | none => toks
    let limit := newPos == x.limit
    let s := ringSettle s n x.ring e.recs out.length
    let ended := stop.isSome || limit
    let first := if e.decode then e.position + 1 else newPos
    let s := modStream s n e.stream (fun _ => { x1 with
      nextSeq := x.nextSeq + out.length
      lastToken := (toks.getLast?.map (·.1)).getD x.lastToken
      ndraft := if e.decode then v.ndraft else 0, drafts := if e.decode then v.drafts.take v.ndraft else []
      state := waitsAs x1 })
    let s := ((List.range out.length).zip out).foldl (fun s t =>
      let last := ended && t.1 + 1 == out.length
      let seq := x.nextSeq + t.1
      emitRecord s n e.stream seq (outRecord e.stream (tokenFlags seq last (last && stop.isSome) (last && limit) (t.1 < v.k)) seq t.2.2 t.2.1
        s.pwr.meridian (first + t.1) sOk) true) s
    if ended then replayAppend (endStream s n e.stream sOk) n e.stream
    else if (replayStopped (streamOf s n e.stream)).isSome then replayHalt s n e.stream
    else if x.pausing then
      let y := streamOf s n e.stream
      let s := modStream s n e.stream (fun y => { y with state := .paused, pausing := false })
      journalise s n 65 0 false (plainItem jPause e.stream y.nextSeq y.reqTag)
    else s

/-- VERDICT_ACKS_COMPLETE (R206, R207): every module of the span has applied the verdict; slots, records and states follow. -/
def execVerdictAcksComplete (n step : Nat) (s : State) : Out :=
  match stepOf s n step with
  | none => .next s
  | some x =>
    if !x.applied || x.acksLeft ≠ [] then .next s
    else
      let s := modStr s n (fun t => { t with steps := t.steps.filter (fun y => y.1 != step), verdicts := t.verdicts + 1 })
      let s := (x.entries.zip x.verdicts).foldl (fun s y =>
        if (partOf s n).ctx.state == .lost || (streamOf s n y.1.stream).state ≠ .scheduled then s else commitStream s n y.1 y.2) s
      let rings := (x.entries.map (fun e => (streamOf s n e.stream).ring)).eraseDups
      let s := rings.foldl (fun s r => quotaBack (wakeOutput (ringServe s n r) n r) n r) s
      .next (sendTransfers (pruneGraph (progress s n) n x.graph) n)

-- the slot cache (R190)

/-- A stream that waits for a step (R190, R195). -/
def waitsStep (x : Stream) : Bool := x.state == .prefill || x.state == .ready

/-- A waiting stream's rank in the order of R195, for the slot cache. -/
def cacheKey (s : State) (n id : Nat) (x : Stream) : Nat := match genAt (partOf s n) x.graph x.gver with | some g => streamKey s g id x | none => 0

/-- Waiting streams of a graph version without a cached slot, in the order of R195: so they are prefetched (R190). -/
def prefetchOrder (s : State) (n h v : Nat) : List Nat :=
  match genAt (partOf s n) h v with
  | some g => orderedStreams s n h v g (fun x => waitsStep x && !x.cached)
  | none => []

/-- The slot that a full cache gives up for another: one whose stream is in no step and does not wait for one, else the waiting stream's that comes last in
the order of R195, and comes after `key` (the spec names none; DESIGN CHOICE, log 166). -/
def slotVictim (s : State) (n id key : Nat) : Option (Nat × Nat) :=
  let l := s.parts.flatMap (fun p => p.2.str.streams.filterMap (fun y =>
    if y.2.cached && y.2.state != .scheduled && !(p.1 == n && y.1 == id) then some (if waitsStep y.2 then cacheKey s p.1 y.1 y.2 + 1 else 0, p.1, y.1) else none))
  match l.find? (fun x => x.1 == 0) with
  | some x => some x.2
  | none => (l.foldl (fun m x => match m with | none => if x.1 > key + 1 then some x else none | some y => if x.1 > y.1 then some x else some y) none).map (·.2)

/-- STREAM_SLOT_FETCH (R190): a missing slot enters the stream cache; a waiting stream's when it is the next of its graph version in the order of R195. -/
def execStreamSlotFetch (n stream : Nat) (s : State) : Out :=
  let x := streamOf s n stream
  if x.state = .free || x.cached || (waitsStep x && (prefetchOrder s n x.graph x.gver).head? != some stream) then .next s
  else
    let put (s : State) : State := modStream s n stream (fun y => { y with cached := true })
    if cachedStreams s < cacheSlots then .next (put s)
    else match slotVictim s n stream (if waitsStep x then cacheKey s n stream x else 0) with
      | some v => .next (put (modStream s v.1 v.2 (fun y => { y with cached := false })))
      | none => .next s

-- spills (R202)

/-- The pools of a generation block with their ranges. -/
def poolRanges (s : State) (n : Nat) (g : GenBlock) : List Range := g.pools.filterMap (fun b => rangeOfBase (partOf s n) b 1)

/-- Addresses of a stream's pages, pool by pool (R200, R202). -/
def pageSpots (s : State) (n : Nat) (g : GenBlock) (ps : List Nat) : List Nat :=
  (poolRanges s n g).flatMap (fun r => ps.map (fun p => r.base * 4096 + p * 2 ^ g.pageOrder))
/-- Their pieces of 64 bytes. -/
def pagePieces (s : State) (n : Nat) (g : GenBlock) (ps : List Nat) : List Nat :=
  (pageSpots s n g ps).flatMap (fun a => (List.range (2 ^ g.pageOrder / 64)).map (fun i => a + 64 * i))

/-- Pieces read by the sequencer: their bytes, and those that are poisoned, by index from `i` on (R126); or what refuses one, and where. -/
def readPieces (s : State) (n : Nat) : Nat → List Nat → List Byte → Except (Nat × ReadRes) (List Byte × List Nat)
  | _, [], _ => .ok ([], [])
  | i, a :: as, ext =>
    let next (bs : List Byte) (bad : List Nat) : Except (Nat × ReadRes) (List Byte × List Nat) :=
      match readPieces s n (i + 1) as (ext.drop 64) with
      | .ok r => .ok (bs ++ r.1, bad ++ r.2)
      | e => e
    match readSpan s .ss n a 64 (ext.take 64) with
    | .ok bs => next bs []
    | .poison => next (List.replicate 64 0#8) [i]
    | r => .error (a, r)

/-- What a stream's pages hold; `ext` holds what other modules return for theirs (DESIGN CHOICE, log 172). -/
def pageData (s : State) (n : Nat) (g : GenBlock) (ps : List Nat) (ext : List Byte) : Except (Nat × ReadRes) (List Byte × List Nat) :=
  readPieces s n 0 (pagePieces s n g ps) ext

/-- Bytes of a sealed spill image: each unit of up to 64 KiB has a 32-byte seal (R362). -/
def sealedBytes (k : Nat) : Nat := k + 32 * ((k + 65535) / 65536)

/-- A place for a spill image: the lowest that meets no other image, in the SPILL range (DESIGN CHOICE, log 49). -/
def spillPlace (s : State) (n : Nat) (g : GenBlock) (k : Nat) : Option Nat :=
  match rangeOfBase (partOf s n) g.spill 2 with
  | none => none
  | some r =>
    let taken := ((partOf s n).str.streams.filter (fun x => x.2.spill != 0)).map
      (fun x => (x.2.spill, x.2.spill + sealedBytes (x.2.spilled * g.pools.length * 2 ^ g.pageOrder)))
    let fits (a : Nat) : Bool := decide (r.base * 4096 ≤ a) && decide (a + sealedBytes k ≤ (r.base + r.len) * 4096) &&
      taken.all (fun t => decide (a + sealedBytes k ≤ t.1) || decide (t.2 ≤ a))
    (((r.base * 4096) :: taken.map (·.2)).filter fits).foldl (fun m a => some (m.elim a (Nat.min a))) none

/-- The victim of R202: lowest effective priority, then newest LAST_STEP, then highest STREAM_ID. -/
def spillVictim (s : State) (n h v : Nat) (g : GenBlock) : Option Nat :=
  (orderedStreams s n h v g (fun x => x.pages != [] &&
    (x.state == .paused || x.state == .waitKv || x.state == .waitOutput || x.state == .ready || x.state == .prefill))).getLast?

/-- Pages or a page list on their way translated for the sequencer. -/
def translatePages (s : State) (n : Nat) (g : GenBlock) (ps : List Nat) (write : Bool) : State :=
  (pageSpots s n g ps).foldl (fun s a => translateSpan s .ss n a (2 ^ g.pageOrder) write ownWork) s

/-- KV_SPILL (R202): one victim's pages go to its spill image and are freed. The image is sealed ciphertext, whose bytes are free (log 11) (DESIGN CHOICE, log 110). -/
def execKvSpill (n : Nat) (inst : GraphVer) (ext : List Byte) (s : State) : Out :=
  let graph := inst.graph
  let ver := inst.ver
  let p := partOf s n
  match genAt p graph ver with
  | none => .next s
  | some g =>
    let starved := p.str.streams.any (fun x => x.2.graph == graph && x.2.gver == ver && x.2.state == .waitKv)
    match spillVictim s n graph ver g with
    | none => .next s
    | some id =>
      let x := streamOf s n id
      let k := x.pages.length * g.pools.length * 2 ^ g.pageOrder
      match spillPlace s n g k with
      -- no room for an image: every stream waiting is a stall too
      | none => .next (if starved && g.spill ≠ 0 && streamsRun p && allWaitKv p graph ver then kvStallEvent s n else s)
      | some a =>
        if !starved || g.spill = 0 || !streamsRun p then .next s
        else
          let s := translatePages s n g x.pages false
          match pageData s n g x.pages ext with
          | .error (va, r) => .next (engineFails s n none 14 va r)
          | .ok (data, bad) =>
            let (d, s) := draw s
            match ssWrite s n [(a, (List.range (sealedBytes k)).map (Config.freeByte d))] with
            | .wait s => .next s
            | .fails s va r => .next (engineFails s n none 14 va r)
            | .done s =>
              let s := returnPages s n graph g x.pages
              let s := modStream s n id (fun y => { y with
                pages := [], spill := a, spilled := x.pages.length, image := data, imageBad := bad, state := if y.state = .paused then .paused else .spilled })
              .next (quotaBack s n x.ring)

/-- Page contents put back: whole pages, and then the pieces that were poisoned. -/
def pageWrites (s : State) (n : Nat) (g : GenBlock) (ps : List Nat) (data : List Byte) : List (Nat × List Byte) :=
  (pageSpots s n g ps).zip (pieces (2 ^ g.pageOrder) data)
def spoilPieces (s : State) (n : Nat) (spots : List Nat) (data : List Byte) (bad : List Nat) : State :=
  bad.foldl (fun s i => writeSpan s n (spots.getD i 0) ((data.drop (64 * i)).take 64) true) s

/-- KV_RELOAD (R202, R363): a SPILLED stream's pages come back bit-exact; an image that fails authentication raises alarm 0x04 and is POISON to
the stream's context. -/
def execKvReload (n stream : Nat) (authentic : Bool) (s : State) : Out :=
  let x := streamOf s n stream
  match genAt (partOf s n) x.graph x.gver with
  | none => .next s
  | some g =>
    if x.state ≠ .spilled || !canReload s n stream g || !streamsRun (partOf s n) then .next s
    else if !authentic then .next (loseCtx (raiseAlarm s 4) n sPoisoned none 0 1 false)
    else
      let (ps, t) := takePages n x.graph g x.spilled s []
      match ssWrite t n ((x.kvList, ps.flatMap (natBytes 4)) :: pageWrites t n g ps x.image) with
      | .wait _ => .next s
      | .fails _ va r => .next (engineFails s n none 14 va r)
      | .done t =>
        let t := spoilPieces t n (pagePieces t n g ps) x.image x.imageBad
        .next (modStream t n stream (fun y => { y with pages := ps, spill := 0, spilled := 0, image := [], imageBad := [], state := waitsAs y }))

/-- KV_PAGES_FREED (R191, R200): a page number is taken into the graph's reserve in the background, and streams of the graph in WAIT_KV go back to PREFILL
or READY once a page can be had (which numbers the reserve holds when is not stated; DESIGN CHOICE, log 163). -/
def execKvPagesFreed (n graph : Nat) (s : State) : Out :=
  match newestGen (partOf s n) graph with
  | none => .next s
  | some (_, g) =>
    match takePage s n graph g with
    | none => .next s
    | some (p, t) =>
      let t := setReserve t n graph (p :: reserveOf t n graph)
      .next (modStr t n (fun t => { t with streams := tabMapV (fun _ x =>
        if x.state = .waitKv && x.graph = graph then { x with state := waitsAs x } else x) t.streams }))

end Sys2Proof.Machine
end

