-- ==== Sys2Proof/Machine/Replay.lean ====
section
/-! DEFINITION. Replay of accepted streams after a part has failed, and reconstruction of request state (R271, R281–R283, R286). -/

namespace Sys2Proof.Machine

-- reconstruction (R271, R281 step 2)

/-- The lowest-ranked surviving partition's module. -/
def lowestModule (vd : Vd) : Nat := arbiterModule vd

/-- Mirrored entries of owners that the map no longer has present. -/
def lostItems (s : State) (n : Nat) : List JournalItem :=
  let vd := (partOf s n).vd
  s.atl.mirror.filter (fun it => it.vdid == vd.vdid && !vd.members.any (fun m => m.present && m.modId == it.owner))

/-- Tokens that name a lost owner name the lowest-ranked survivor (R269, R281 step 2). -/
def retoken (s : State) (n : Nat) : State :=
  let vd := (partOf s n).vd
  let to_ := lowestModule vd
  let lost (t : Nat × Nat) : Bool := t.1 != 0 && !vd.members.any (fun m => m.present && m.modId == t.2)
  modStr s n (fun t => { t with
    tokens := tabMapV (fun _ x => if lost x then (vd.edition, to_) else x) t.tokens
    away := t.away.filter (fun x => !(to_ == s.glb.moduleId && lost (tabGet (0, 0) t.tokens x.1))) })

/-- State of lost owners taken from this module's mirror: into the home journal where this is the lowest-ranked survivor, else on to that module
(R281 step 2). -/
def reconstruct (s : State) (n : Nat) : State :=
  let vd := (partOf s n).vd
  let items := lostItems s n
  let s := retoken s n
  let to_ := lowestModule vd
  let ids := ((items.filter (fun it => it.typ != jDelivery)).map (·.stream)).eraseDups
  let s := { s with atl := { s.atl with mirror := s.atl.mirror.filter (fun it => !items.contains it) } }
  if items = [] then s
  else if to_ = s.glb.moduleId then
    let s := adoptItems s n vd.edition items
    modStr s n (fun t => { t with tokens := ids.foldl (fun x id => tabSet (0, 0) x id (vd.edition, to_)) t.tokens, away := t.away.filter (fun x => !ids.contains x.1) })
  else
    ids.foldl (fun s id =>
      let mine := items.filter (fun it => it.stream == id)
      let pay := natBytes 8 vd.vdid ++ natBytes 8 id ++ natBytes 8 vd.edition ++ natBytes 8 to_ ++ natBytes 8 0 ++ mine.flatMap itemBytes
      sendAtlas s to_ atlTransfer mine.length pay) s

/-- The best of the copies of a state, as (edition, owner, journal sequence): the highest token, and with it the highest JSEQ (R271). -/
def bestCopy (l : List (Nat × Nat × Nat)) : Option (Nat × Nat × Nat) :=
  l.foldl (fun a x => match a with
    | none => some x
    | some y => if editionLater x.1 y.1 || (x.1 == y.1 && decide (x.2.2 > y.2.2)) then some x else some y) none

/-- HANDOFF_TIMEOUT (R271): no confirmation within 1 ms; the arbiter reconstructs the state at a new edition, at the owner that the current map
names (DEDUCED, log 105). -/
def execHandoffTimeout (vdid stream : Nat) (copies : List (Nat × Nat × Nat)) (s : State) : Out :=
  match partOfVdid s vdid with
  | none => .next s
  | some n =>
    let vd := (partOf s n).vd
    match bestCopy copies, isArbiter vd with
    | some best, true =>
      let named := ((partOf s n).str.handoff.find? (fun h => h.1 == stream)).map (·.2.2.1)
      let live (m : Nat) : Bool := vd.members.any (fun x => x.present && x.modId == m)
      let want := named.getD best.2.1
      let owner := if live want then want else lowestModule vd
      let s := { s with atl := { s.atl with event := s.atl.event ||| 4 } }
      let s := event s 5 1 4 0 10 0 (some n) none [BitVec.ofNat 64 (owner * 2 ^ 32), BitVec.ofNat 64 vd.edition, 0]
      let s := modStr s n (fun t => { t with handoff := t.handoff.filter (fun h => h.1 != stream), tokens := tabSet (0, 0) t.tokens stream (best.1, best.2.1) })
      .next (commitChange (reconstruct s n) n (.owner stream owner))
    | _, _ => .next s

-- replay (R281–R283)

/-- Fields of a record read back from a ring (R211). -/
def recordStream (bs : List Byte) : Nat := leAt bs 0 4 % 2 ^ 20
def recordSeq (bs : List Byte) : Nat := leAt bs 4 6

/-- The newest DELIVERY of a stream: SEQ and DIGEST (R280, R282). -/
def deliveredOf (items : List JournalItem) (id : Nat) : Nat × BitVec 64 :=
  (((items.filter (fun it => it.typ == jDelivery)).flatMap deliveryStreams).filter (fun x => x.1 == id)).getLast?.map (·.2) |>.getD (0, 0)

/-- The replay bookkeeping of a stream at the producer (R282). -/
def replayOf (items : List JournalItem) (back : List (List Byte)) (id : Nat) : Replay :=
  let j := deliveredOf items id
  let mine := (back.filter (fun r => recordStream r == id)).map (fun r => (recordSeq r, r))
  { d := mine.foldl (fun a x => Nat.max a x.1) j.1, jseq := j.1, jdigest := j.2, readBack := mine }

/-- A stream set back to its inputs from its journal entries (R281 step 4): PREFILL, nothing prefilled, DELIVERED_SEQ at D. The slot keeps the
graph version and the page list that it had. -/
def replayStream (n : Nat) (s : State) (id : Nat) : State :=
  let items := (partOf s n).journal.home.filter (fun it => it.stream == id)
  match items.find? (fun it => it.typ == jOpen) with
  | none => s
  | some it =>
    let s := dropPages s n id
    let old := streamOf s n id
    let x := slotFrom (fun i => (it.body.getD i 0).toNat)
    let more := items.filter (fun i => i.typ != jOpen)
    let d := (tabGet none (partOf s n).str.replays id).elim old.deliveredSeq (·.d)
    let fresh : Stream := { x with
      gver := old.gver, kvList := old.kvList, deliveredSeq := d, replayStop := stopOf more, again := more.dropWhile (fun i => i.typ != jAppend)
      cached := old.cached }
    if old.state ≠ .free then replayHalt (modStream s n id (fun _ => fresh)) n id
    else match openStream s n it with
      | none => s
      | some s => replayHalt (modStream s n id (fun y => { fresh with gver := y.gver, kvList := y.kvList, cached := y.cached })) n id

/-- P of the newest DELIVERY entry of a ring that a journal holds (R280). -/
def deliveredP (items : List JournalItem) (ring : Nat) : Option Nat :=
  ((items.filter (fun it => it.typ == jDelivery && (it.body.headD 0).toNat == ring)).getLast?).map (fun it => (it.body.getD 1 0).toNat)

/-- A ring as the producer takes it up (R281 steps 3 and 4): P at P_host, C as read, P_j as the journal has it. -/
def replayRing (n : Nat) (s : State) (r : Nat × Nat × Nat × List (List Byte)) : State :=
  let pj := deliveredP (partOf s n).journal.home r.1
  modRing s n r.1 (fun y => if y.created then { y with p := r.2.1, c := r.2.2.1, pj := pj.getD y.pj, reserved := 0, waiting := [] } else y)

/-- REPLAY_START (R281 steps 1 to 4): `reads` gives, for each ring, its number, P_host, CIDX and the records of slots P_j to P_host − 1. -/
def execReplayStart (n : Nat) (reads : List (Nat × Nat × Nat × List (List Byte))) (s : State) : Out :=
  let p := partOf s n
  if p.ctx.state ≠ .recovering || p.vd.preparing.isSome || p.str.replayOn then .next s
  else
    let s := reconstruct s n
    let items := (partOf s n).journal.home
    let back := reads.flatMap (fun r => r.2.2.2)
    let ids := ((items.filter (fun it => it.typ == jOpen)).map (·.stream) ++ ((items.filter (fun it => it.typ == jDelivery)).flatMap deliveryStreams).map (·.1)).eraseDups
    let s := if (partOf s n).vd.front then reads.foldl (replayRing n) s else s
    let s := modStr s n (fun t => { t with
      delivered := [], steps := []
      replays := if (partOf s n).vd.front then ids.foldl (fun x id => tabSet none x id (some (replayOf items back id))) [] else [] })
    let s := ids.foldl (replayStream n) s
    let s := if (partOf s n).vd.front then ids.foldl (fun s id => markDelivered s n id ((tabGet none (partOf s n).str.replays id).elim 0 (·.d))) s else s
    .next (modStr s n (fun t => { t with replayOn := true }))

/-- A stream has passed D, stands at its PAUSE entry, or has ended (R281 step 6). -/
def replayPassed (s : State) (n id : Nat) (x : Stream) : Bool :=
  x.state == .free || x.state == .paused || (x.state == .done && x.again.isEmpty) ||
  decide (x.nextSeq > (tabGet none (partOf s n).str.replays id).elim x.deliveredSeq (·.d))

/-- REPLAY_COMPLETE (R242, R281 step 6, R374): the context is ACTIVE again. Its queues are empty: packets that lie in a ring unfetched belong to what was
lost and are not run (DESIGN CHOICE, log 156). -/
def execReplayComplete (n : Nat) (s : State) : Out :=
  let p := partOf s n
  if p.ctx.state ≠ .recovering || !p.str.replayOn || !p.str.streams.all (fun x => replayPassed s n x.1 x.2) then .next s
  else
    let s := modPart s n (fun p => { p with
      ctx := { p.ctx with state := .active, replaying := false }
      str := { p.str with replays := [], replayOn := false }
      queues := tabMapV (fun _ q => { q with stale := (q.sqTail + 2 ^ 32 - q.fetched) % 2 ^ 32 }) p.queues })
    .next (event s 10 0 3 0 10 0 (some n) none [BitVec.ofNat 64 s.pwr.meridian, BitVec.ofNat 64 p.vd.edition, 0])

end Sys2Proof.Machine
end

