-- ==== Sys2Proof/Machine/Deliver.lean ====
section
/-! DEFINITION. Packets of the fabric at this module: editions, bounces and holds, forwarding and returns, and what each kind does where it is delivered (R265–R268, R308–R314, R317, R318, R383). -/

namespace Sys2Proof.Machine

/-- The state a meaning goes on to. -/
def outState (s : State) : Out → State
  | .next t => t
  | _ => s

/-- Little-endian words of a payload. -/
def payNat (p : Packet) (i : Nat) : Nat := leAt p.payload (8 * i) 8
def payNats (p : Packet) (from_ : Nat) : List Nat := ((pieces 8 (p.payload.drop (8 * from_))).map bytesNat)
def payWords (p : Packet) (from_ k : Nat) : List W64 := (List.range k).map (fun i => BitVec.ofNat 64 (payNat p (from_ + i)))
def opCode (p : Packet) : Nat := p.operand.toNat / 2 ^ 56
def opArg (p : Packet) : Nat := p.operand.toNat % 2 ^ 56

-- map changes from their numbers

/-- A counted list at the head of some numbers, and the rest. -/
def takeList : List Nat → List Nat × List Nat
  | [] => ([], [])
  | k :: l => (l.take k, l.drop k)

/-- Map entries from their numbers. -/
def mapEntries : Nat → List Nat → List MapEntry
  | 0, _ => []
  | k + 1, l => match l with
    | r :: m :: c :: y :: ln :: p :: j :: v :: b :: rest =>
      { rank := r, modId := m, compute := c, memory := y, links := ln, present := p != 0, partner := j, partnerValid := v != 0, standby := b != 0 } :: mapEntries k rest
    | _ => []

/-- The change that numbers spell, and the numbers left; with fuel. -/
def changeOf : Nat → List Nat → MapChange × List Nat
  | 0, l => (.other, l)
  | k + 1, l => match l with
    | 1 :: l => let a := takeList l; let b := takeList a.2; (.grow a.1 b.1, b.2)
    | 2 :: l => let a := takeList l; (.leaving a.1, a.2)
    | 3 :: l => let a := takeList l; (.remove a.1, a.2)
    | 4 :: x :: l => (.take x, l)
    | 5 :: x :: l => (.back x, l)
    | 6 :: l => let a := takeList l; (.guar a.1 (a.2.getD 0 0) (a.2.getD 1 0) (a.2.getD 2 0 != 0), a.2.drop 3)
    | 7 :: x :: l => (.front x, l)
    | 8 :: x :: l => (.absent x, l)
    | 9 :: x :: l => (.present x, l)
    | 10 :: x :: y :: l => (.owner x y, l)
    | 11 :: c :: l => (.map (mapEntries c l), l.drop (9 * c))
    | 12 :: m :: l => let a := changeOf k l; (.only m a.1, a.2)
    | 15 :: m :: c :: y :: k :: l => (.counts m c y k, l)
    | 13 :: l => let a := changeOf k l; let b := changeOf k a.2; (.seq a.1 b.1, b.2)
    | _ :: l => (.other, l)
    | [] => (.other, [])
def changeIn (p : Packet) (from_ : Nat) : MapChange := let l := payNats p from_; (changeOf (l.length + 1) l).1

/-- Journal entries of a TRANSFER, with fuel. -/
def itemsIn : Nat → List Byte → List JournalItem
  | 0, _ => []
  | k + 1, bs => match itemOf bs with
    | none => []
    | some it => it :: itemsIn k (bs.drop (64 + 64 * itemUnits it))

-- modules that cannot be reached (R286, R312, R383)

/-- A partner that is gone (R275, R286): requests not yet mirrored are refused, other entries go on unmirrored. -/
def partnerGone (s : State) (mid : Nat) : State :=
  (livePartsOf s).foldl (fun s n =>
    if !((partOf s n).vd.partnerValid && (partOf s n).vd.partner == mid) then s
    else
      let s := modVd s n (fun v => { v with partnerValid := false })
      ((partOf s n).journal.waiting).foldl (fun s w =>
        if w.mirrored then s
        else if w.item.typ ≤ 2 then entryRefused s n w.jseq
        else entrySettle (modPending s n w.jseq (fun y => { y with mirrored := true })) n w.jseq) s) s

/-- A module that this one finds unreachable is a failed part (R312, R374, R383). -/
def moduleGone (s : State) (mid : Nat) : State :=
  let s := event s 5 1 5 0 10 0 none none [BitVec.ofNat 64 (mid * 2 ^ 32), 0, 0]
  let s := (livePartsOf s).foldl (fun s n => memberFails s n mid) s
  partnerGone s mid

-- virtual-device packets delivered here (R308)

/-- A RESPONSE to the sender of a request, under the request's tag. -/
def sendResponse (s : State) (n : Nat) (p : Packet) (r : Resp) (bulk : Bool) (data : List Byte) : State :=
  let code : Nat := match r with | .ok => 0 | .collide => 1 | .fault => 2 | .poison => 3
  let vd := (partOf s n).vd
  sendPacket s (mkPacket s 0x04 p.src vd.vdid vd.edition p.dtask p.cseq false (BitVec.ofNat 64 (code + b2n bulk * 2 ^ 8)) data)

/-- The task for which a remote request accesses an allocator port (log 38). -/
def remoteTask (s : State) (n va dtask : Nat) : Option Nat := (portRange s n va).map (fun _ => dtask)

/-- A write request of another module (R109, R308); one that must wait for a page is held, and taken up when it is given again. -/
def deliverPut (s : State) (n : Nat) (p : Packet) (bulk : Bool) : State :=
  let va := p.operand.toNat % 2 ^ 52
  let m : Master := .remote p.src
  match putAt s m (unitCode m, va) (remoteTask s n va p.dtask) n va p.payload [] with
  | .wait s => modVd s n (fun v => { v with heldPkts := v.heldPkts ++ [p] })
  | .done s r _ => sendResponse s n p r bulk []

/-- A read request that this module does not serve goes on to the module that does, or to the host. -/
def passRead (s : State) (n : Nat) (p : Packet) : State :=
  let va := p.operand.toNat % 2 ^ 52
  match (pageStarts va (payNat p 0)).findSome? (fun a => match translate s n a false with | .there m _ => some m | _ => none) with
  | some m => sendPacket s { p with dst := m, ttl := 64 }
  | none => readOut s n va (payNat p 0) p.dtask

/-- A read request of another module; its length heads the payload (log 33). -/
def deliverGet (s : State) (n : Nat) (p : Packet) (bulk : Bool) : State :=
  let va := p.operand.toNat % 2 ^ 52
  let m : Master := .remote p.src
  match getAt s m (unitCode m, va) (remoteTask s n va p.dtask) n va (payNat p 0) [] [] with
  | .wait s => modVd s n (fun v => { v with heldPkts := v.heldPkts ++ [p] })
  | .away s _ => passRead s n p
  | .done s r bs => sendResponse s n p r bulk bs

/-- The local launch that another module's number names. -/
def launchFrom (s : State) (n mid id : Nat) : Option Nat :=
  (tabKeys (fun l x => x.live && (x.reportTo == some (mid, id) || (x.reportTo.isNone && mid == s.glb.moduleId && l == id))) (partOf s n).launches).head?

/-- A share of a kernel that the front starts (R90, R234); without room for its spill area it is refused. -/
def deliverShare (s : State) (n : Nat) (p : Packet) : State :=
  let w (o : Nat) : Nat := payNat p (3 + (o - 16) / 8)
  let x := launchOfWords (partOf s n).vd w { seq := none, node := none, graph := payNat p 1, descriptor := payNat p 2 }
  match shareStart s n { x with reportTo := some (p.src, p.dtask) } with
  | some (id, s) => launchSettle s n id
  | none => sendControl s n p.src p.dtask ctlShareDone (2 ^ 32) []

/-- A member's share has ended, or was refused (R93, R234). -/
def shareEnded (s : State) (n : Nat) (p : Packet) : State :=
  let id := p.dtask
  if opArg p ≥ 2 ^ 32 then
    let others := (launchOf s n id).left.filter (· != p.src)
    let s := others.foldl (fun s m => sendControl s n m id ctlStop 0 []) s
    launchRefused s n id
  else
    let s := modLaunch s n id (fun x => if x.live then { x with
      left := x.left.filter (· != p.src), unready := x.unready.filter (· != p.src), discarded := x.discarded + opArg p } else x)
    launchSettle (goAll s n id) n id

/-- A member is told of a registration (R114): it reserves its own staging, or says that it has no room. -/
def handleAsked (s : State) (n : Nat) (p : Packet) : State :=
  let h := opArg p % 2 ^ 12
  let e := payNat p 0
  let need := payNat p 1
  if stagingUsed s e + need > stagingBank then sendControl s n p.src 0 ctlHandleAck (h + 2 ^ 12) []
  else sendControl (modColl s n h (fun y => { y with registered := true, task := bitOf (opArg p) 12, engine := e, staging := need })) n p.src 0 ctlHandleAck h []

/-- A member's answer about a registration (R114): with the last one it stands; one without room refuses it everywhere. -/
def handleAnswered (s : State) (n : Nat) (p : Packet) : State :=
  let h := opArg p % 2 ^ 12
  let co := collOf s n h
  if !co.asking.contains p.src then s
  else if bitOf (opArg p) 12 then
    let s := dropHandle s n h
    (match co.askCmd with | some (f, seq) => finish s f 4 seq sRefused 0 | none => s)
  else registerSettle (modColl s n h (fun y => { y with asking := y.asking.filter (· != p.src) })) n h

/-- The context as its front tells it (R240, R249). -/
def contextTold (s : State) (n tag : Nat) : State :=
  if tag = 0 then ctxGone s n
  else if (partOf s n).ctx.state = .none then modCtx s n (fun _ => { tag, state := .active }) else s

/-- A CONTROL packet delivered (R308; codes of log 33). -/
def deliverControl (s : State) (n : Nat) (p : Packet) : State :=
  let arg := opArg p
  match opCode p with
  | 1 => shareEnded s n p
  | 2 => deliverShare s n p
  | 3 =>
    (match launchFrom s n (payNat p 1 % 2 ^ 32) (payNat p 1 / 2 ^ 32) with
     | some l => barTold s n l (payNat p 0 % 2 ^ 32) (payNat p 0 / 2 ^ 32) p.dtask (payNat p 2)
     | none => s)
  | 5 => verdictTold s n p.src p.dtask (verdictsIn p.payload)
  | 6 => modStr s n (fun t => { t with steps := t.steps.map (fun x => if x.1 % 2 ^ 32 = p.dtask then (x.1, { x.2 with acksLeft := x.2.acksLeft.filter (· != p.src) }) else x) })
  | 7 =>
    let s := modPart s n (fun q => { q with fences := { q.fences with exist := true, words := tabSet 0 q.fences.words arg (BitVec.ofNat 64 (payNat p 0)) } })
    sendControl s n p.src 0 ctlFenceAck arg []
  | 8 => outState s (execFenceStandbyAck n s)
  | 9 => contextTold s n arg
  | 10 => handleAsked s n p
  | 11 => modColl s n arg (fun _ => {})
  | 12 =>
    let r := rangeOf (payNat p)
    sendControl (if (partOf s n).ranges.any (rangesMeet r) then s else addHere s n r) n p.src 0 ctlRangeAck r.base []
  | 13 => (match (partOf s n).ranges.find? (fun r => r.base == arg) with
    | some r => settleDying (withdraw s n r (some p.src)) n
    | none => sendControl s n p.src 0 ctlRangeAck arg [])
  | 29 => rangeAnswered s n p.src arg
  | 30 => rangeAsked s n p.src arg (rangeOf (payNat p))
  | 31 => rangePlaced s n p.src arg (rangeOf (payNat p))
  | 32 => (match (partOf s n).dying.find? (fun x => x.1.base == arg) with
    | some x => sendControl (freeRange s n x.1 (p.dtask == 1)) n p.src 0 ctlRangeAck arg []
    | none => sendControl s n p.src 0 ctlRangeAck arg [])
  | 33 => sendControl (rewriteHere s n (rangeOf (payNat p))) n p.src 0 ctlRangeAck arg []
  | 34 => (match pageReturn s n arg with
    | (s, none) => modVd s n (fun v => { v with heldPkts := v.heldPkts ++ [p] })
    | (s, some st) => sendControl s n p.src p.dtask ctlPageReturned st [])
  | 35 => finish s n 5 p.dtask arg 0
  | 36 => graphTold s n arg (versionIn p.payload)
  | 37 => forgetGraph s n arg
  | 38 => ringServe (modRing s n (arg % 64) (fun r => { r with asks := r.asks ++ [(p.src, arg / 64)] })) n (arg % 64)
  | 39 => quotaBack (wakeOutput (modRing s n (arg % 64) (fun r => { r with quota := r.quota + arg / 64, asking := false })) n (arg % 64)) n (arg % 64)
  | 40 => wakeOutput (ringServe (modRing s n (arg % 64) (fun r => { r with reserved := r.reserved - arg / 64 })) n (arg % 64)) n (arg % 64)
  | 41 => ownerTold s n p.src p.dtask arg (payNat p 0)
  | 14 =>
    let w := payNats p 0
    let t := streamCmdAt s n (1000 + p.src) p.dtask (arg / 256) (bitOf (arg % 256) 5) (fun o => w.getD (o / 8) 0)
    -- one whose prompt waits for a host page is given again (R167)
    if t.fab.out.length = s.fab.out.length && (partOf t n).journal.waiting.length = (partOf s n).journal.waiting.length then
      modVd t n (fun v => { v with heldPkts := v.heldPkts ++ [p] })
    else t
  | 15 => finish s n 1 p.dtask arg (payNat p 0)
  | 16 => modRing s n p.dtask (fun _ => if arg = 0 then {} else
      { created := true, log2 := arg % 2 ^ 8, base := payNat p 0, pidxAddr := payNat p 1, cidxAddr := payNat p 2 })
  | 17 => recordCome s n p.dtask arg p.payload
  | 18 => markDelivered s n p.dtask arg
  | 19 =>
    (match launchFrom s n p.src p.dtask with
     | some l => sendControl (stopShare s n l) n p.src p.dtask ctlStopped 0 []
     | none => sendControl s n p.src p.dtask ctlStopped 0 [])
  | 20 => outState s (execEngineAbortAck n (if arg = 1 then 1 else 2) (64 + p.src) s)
  | 22 => (match launchFrom s n (payNat p 0 % 2 ^ 32) (payNat p 0 / 2 ^ 32) with | some l => barFault s n l p.dtask | none => s)
  | 23 => goAll (modLaunch s n p.dtask (fun x => if x.live then { x with unready := x.unready.filter (· != p.src) } else x)) n p.dtask
  | 24 => (match launchFrom s n p.src p.dtask with | some l => modLaunch s n l (fun x => { x with go := true }) | none => s)
  | 42 => placeAsked s n p.src (rangeOf (payNat p))
  | 43 => placeAnswered s n p.src arg (if p.payload = [] then none else some (rangeOf (payNat p)))
  | 44 => modPart s n (fun q => { q with coming := q.coming.filter (fun c => !(c.src == p.src && c.range.base == arg)) })
  | 45 => placed s n p.src arg
  | 46 => modPart s n (fun q => { q with pools := tabSet {} q.pools arg (poolOfNats (payNats p 0)) })
  | 26 => handleAnswered s n p
  | 27 =>
    let set (k : List Nat) : Tab W64 := tabOf 0 ((pairUp k).map (fun x => (x.1, BitVec.ofNat 64 x.2)))
    modPart s n (fun q => { q with fences := { q.fences with exist := true, count := arg, shadow := payNat p 0, words := set (payNats p 1) } })
  | 28 => stopAnswer (modStr s n (fun t => { t with stopFrom := t.stopFrom ++ [p.src] })) n p.src
  | 25 => (match launchFrom s n p.src p.dtask with | some l => modPart s n (fun q => { q with launches := tabSet {} q.launches l {} }) | none => s)
  | _ => s

/-- The message that a SEND packet carries. -/
def packetMsg (p : Packet) : Msg :=
  { src := p.operand.toNat % 2 ^ 32, dst := p.dtask, chan := bits p.operand.toNat 35 32, cseq := p.cseq, payload := p.payload }

/-- A BULK write that carries bytes of a range which another module gives away (R178). -/
def isPiece (p : Packet) : Bool := p.kind == 5 && bitOf p.operand.toNat 63

/-- A packet by which a range goes to another module: firmware's work, which no abort stops. -/
def isReplacing (p : Packet) : Bool := isPiece p || (p.kind == 8 && decide (ctlPlaceAsk ≤ opCode p))

/-- A virtual device's slices on this module have aborted and refuse its packets (R382). -/
def refusesPackets (s : State) (n : Nat) (p : Packet) : Bool :=
  ((partOf s n).ctx.state == .lost || (partOf s n).ctx.state == .destroying) && !(p.kind == 8 && (opCode p == 9 || opCode p == 20 || opCode p == 15)) && !isReplacing p

/-- A packet of a virtual device delivered at its partition here (R308). -/
def deliverVd (s : State) (n : Nat) (p : Packet) : State :=
  if refusesPackets s n p then s
  else match p.kind with
    | 0x01 =>
      -- a message of a kernel whose share here has not started yet waits for it
      if !isHandle p.dtask && (homeLaunch s n (packetMsg p)).isNone then modVd s n (fun v => { v with heldPkts := v.heldPkts ++ [p] })
      else outState s (execMessageDeliver ⟨p.src, n⟩ (packetMsg p) s)
    | 0x02 => deliverPut s n p false
    | 0x03 => deliverGet s n p false
    | 0x04 =>
      if bitOf p.operand.toNat 9 then sendAnswered s n p.dtask p.cseq (payNat p 0) (p.operand.toNat % 4 == 0) else
      let r : Resp := match p.operand.toNat % 4 with | 0 => .ok | 1 => .collide | 2 => .fault | _ => .poison
      answerReq s (unitCode (.remote p.src)) p.dtask r p.payload
    | 0x05 => if isPiece p then pieceCome s n p.src p.operand.toNat p.payload else deliverPut s n p true
    | 0x06 => deliverGet s n p true
    | 0x08 => deliverControl s n p
    | _ => s

-- editions (R266, R268)

/-- A packet sent back to its sender with a reason (R312). DST and SRC change places (DESIGN CHOICE, log 33). -/
def returned (p : Packet) (ret edition : Nat) : Packet := { p with ret, edition, dst := p.src, src := p.dst, ttl := 64 }

/-- The module to which a virtual device's packet goes under the map here: this module, or another (R90, R158, R266). -/
def resolveTo (s : State) (n : Nat) (p : Packet) : Nat :=
  let me := s.glb.moduleId
  match p.kind with
  | 0x01 =>
    if isHandle p.dtask then (if (partOf s n).vd.front then me else frontModule (partOf s n).vd) else
    let l := (tabKeys (fun _ x => x.live && decide (p.dtask < gridSize x)) (partOf s n).launches).head?
    (match l with
     | some l => if (launchOf s n l).lo ≤ p.dtask && p.dtask < (launchOf s n l).hi then me
       else ((homeMember (partOf s n).vd (gridSize (launchOf s n l)) p.dtask).map (·.modId)).getD me
     | none => me)
  | 0x02 => (match translate s n (p.operand.toNat % 2 ^ 52) true with | .there m _ => m | _ => me)
  | 0x05 => if isPiece p then me else (match translate s n (p.operand.toNat % 2 ^ 52) true with | .there m _ => m | _ => me)
  | 0x03 => (match translate s n (p.operand.toNat % 2 ^ 52) false with | .there m _ => m | _ => me)
  | 0x06 => (match translate s n (p.operand.toNat % 2 ^ 52) false with | .there m _ => m | _ => me)
  | _ => me

/-- A bounce (R266, R268): the packet goes back with this module's edition, and a message's channel stays closed until it arrives again. -/
def bounce (s : State) (n : Nat) (p : Packet) : State :=
  let vd := (partOf s n).vd
  let key := rxKey (packetMsg p)
  let s := if p.kind = 1 && !vd.bounced.any (fun x => x.1 == key) then modVd s n (fun v => { v with bounced := v.bounced ++ [(key, p.cseq)] }) else s
  sendPacket s (returned p 1 vd.edition)

/-- A message behind a bounced one of its sender and channel (R268). -/
def behindBounce (s : State) (n : Nat) (p : Packet) : Bool :=
  p.kind = 1 && (partOf s n).vd.bounced.any (fun x => x.1 == rxKey (packetMsg p) && x.2 != p.cseq)

/-- A virtual device's packet addressed to this module, by its edition (R266). -/
def admitVd (s : State) (p : Packet) : State :=
  match partOfVdid s p.vdid with
  | none => sendPacket s (returned p 1 0)
  | some n =>
    -- a packet that waited here and is given again is taken from among those held
    let s := modVd s n (fun v => { v with heldPkts := v.heldPkts.erase p })
    let vd := (partOf s n).vd
    let e := vd.edition
    if behindBounce s n p then bounce s n p
    else
      let open_ (s : State) : State := modVd s n (fun v => { v with bounced := v.bounced.filter (fun x => !(p.kind == 1 && x.1 == rxKey (packetMsg p))) })
      if p.edition = e then deliverVd (open_ s) n p
      else if (p.edition + 1) % 2 ^ 32 = e && vd.overlap then
        let to_ := resolveTo s n p
        if to_ = s.glb.moduleId then deliverVd (open_ s) n p
        else sendPacket (open_ s) { p with dst := to_, edition := e, ttl := 64 }
      else if p.edition = (e + 1) % 2 ^ 32 then modVd s n (fun v => { v with heldPkts := v.heldPkts ++ [p] })
      else bounce s n p

/-- Packets that were held take their way again: those for the edition now applied, and requests that waited for a page. -/
def retryHeld (s : State) (n : Nat) : State :=
  let l := heldOf s n
  l.foldl admitVd (clearHeld s n)

/-- PREPARE (R266, R267): this module adopts edition E + 1, opens the overlap window for E, acknowledges, and takes up what it held. -/
def execPrepare (vdid edition : Nat) (change : MapChange) (s : State) : Out :=
  match partOfVdid s vdid with
  | none => .next s
  | some n =>
    if edition ≠ ((partOf s n).vd.edition + 1) % 2 ^ 32 || (partOf s n).vd.preparing.isSome then .next s
    else .next (retryHeld (applyPrepare s n edition change) n)

/-- EDITION_HOLD_TIMEOUT (R266): packets held for an edition not applied within 2 ms are bounced (DEDUCED, log 104). -/
def execEditionHoldTimeout (vdid : Nat) (s : State) : Out :=
  match partOfVdid s vdid with
  | none => .next s
  | some n =>
    let next := ((partOf s n).vd.edition + 1) % 2 ^ 32
    let late := (heldOf s n).filter (fun p => p.edition == next)
    let s := modVd s n (fun v => { v with heldPkts := v.heldPkts.filter (fun p => p.edition != next) })
    .next (late.foldl (fun s p => bounce s n p) s)

-- module-addressed packets (R308)

/-- A partition committed here by a front on another module (R259 step 4, R261). -/
def commitHere (s : State) (p : Packet) : State :=
  let raw := payWords p 6 16
  let sb := payNat p 4
  let ch := changeIn p 22
  let map := match ch with | .map l => l | _ => []
  let b : NewPart := { vdid := payNat p 0, edition := payNat p 1, rank := payNat p 2, frontRank := payNat p 3, standby := if sb = 0 then none else some (sb - 1)
                       store := payNat p 5, entry := entryOf (fun i => (raw.getD i 0).toNat), map }
  let s := unreserve s p.src
  match buildPart s b with
  | some (_, s) => s
  | none => s

/-- An ATLAS packet delivered (codes of log 33). -/
def deliverAtlas (s : State) (p : Packet) : State :=
  let arg := opArg p
  match opCode p with
  | 1 => outState s (execPrepare (payNat p 0) (payNat p 1) (changeIn p 2) s)
  | 2 => (match partOfVdid s (payNat p 0) with | some n => prepareAcked s n p.src (payNat p 1) | none => s)
  | 3 => outState s (execSettle (payNat p 0) (payNat p 1) s)
  | 4 =>
    let a := takeList (payNats p 0)
    outState s (execReserve p.src arg a.1 (a.2.take 8) s)
  | 5 => reserveAnswer s p.src arg
  | 6 => commitHere s p
  | 7 => unreserve s p.src
  | 8 => (match itemOf p.payload with | some it => outState s (execJournalMirror { it with owner := p.src } s) | none => s)
  | 9 =>
    (match partOfVdid s (payNat p 0) with
     | some n => if arg = 1 then outState s (execJournalAccept n (payNat p 1) s)
       else if ((partOf s n).journal.waiting.any (fun w => w.jseq == payNat p 1 && w.item.typ ≤ 2)) then
         entryRefused { s with atl := { s.atl with event := s.atl.event ||| 8 } } n (payNat p 1)
       else s
     | none => s)
  | 10 =>
    let k := payNat p 4
    let bs := p.payload.drop (40 + 8 * k)
    outState s (execTransfer (payNat p 0) (payNat p 1) (payNat p 2) (payNat p 3) (payWords p 5 k) (itemsIn arg bs) s)
  | 11 => outState s (execHeld (payNat p 0) (payNat p 1) (payNat p 2) (payNat p 3) s)
  | 12 => outState s (execReleased (payNat p 0) (payNat p 1) (payNat p 2) s)
  | 13 =>
    (match partOfVdid s arg with
     | some n => releaseSettle (releaseHere (modVd s n (fun v => { v with reportTo := some p.src })) n) n
     | none => sendAtlas s p.src atlFreed arg [])
  | 14 =>
    (match s.atl.releasing with
     | some (v, left) => if v = arg then releaseStep { s with atl := { s.atl with releasing := some (v, left.filter (· != p.src)) } } else s
     | none => s)
  | 15 => sendAtlas s p.src atlCollected 0 ((livePartsOf s).flatMap (fun n => natBytes 8 (partOf s n).vd.vdid))
  | 18 => if !isRoot s then s else if s.fab.collected then giveVdid s p.src else { s with fab := { s.fab with asks := s.fab.asks ++ [p.src] } }
  | 19 => createStep { s with atl := { s.atl with given := arg } }
  | 20 => vdidGone s arg
  | 21 => (match partOfVdid s arg with | some n => memberFails s n (payNat p 0) | none => s)
  | 23 =>
    let s := takeKeys s arg (payNat p 0) (payNat p 1)
    let s := sweepTold s arg p.src
    if payNat p 0 = 0 then s else sendAtlas s p.src atlKeysHeld arg []
  | 24 => (match partOfVdid s (payNat p 0) with | some n => commitChange s n (changeIn p 2) | none => s)
  | 25 => unmirror s p.src (payNat p 0) (payNat p 1)
  | 27 => keysHeld s arg p.src
  | 28 => vdidMoved s arg
  | 30 => sweepEnded s arg p.src
  | 31 => { s with atl := { s.atl with clearing := s.atl.clearing.filter (· != (arg, p.src)) } }
  | 29 => sendAtlas (match partOfVdid s arg with | some n => lockHere s n | none => s) p.src atlLocked arg []
  | 32 => (match partOfVdid s arg with | some n => lockedAt s n p.src | none => s)
  | _ => s

/-- A parent's reply to a TIME packet (R405): t1 as it came, t2 and t3 as this module's count stands. -/
def replyTime (s : State) (p : Packet) : State :=
  if opCode p ≠ 0 then s
  else sendPacket s (mkPacket s 0x0D p.src 0 0 p.dtask 0 true (ctlOperand 1 0) (natBytes 8 (payNat p 0) ++ natBytes 8 s.pwr.meridian ++ natBytes 8 s.pwr.meridian))

/-- A module-addressed packet delivered (R308, R311, R313, R314, R318). -/
def deliverModule (s : State) (k : Nat) (p : Packet) : State :=
  match p.kind with
  | 0x09 =>
    if opCode p = atlHeartbeat then (let r := heartbeatHeard s (opArg p); if r.2 then relay r.1 k p else r.1) else deliverAtlas s p
  | 0x0A => outState s (execAbort (payNat p 0 % 2 ^ 24) (bits (payNat p 0) 31 24) (bits (payNat p 0) 39 32) (bits (payNat p 1) 51 32) (payNat p 1 % 2 ^ 32) s)
  | 0x0C => claimHeard s k p (opCode p == 1) (opArg p)
  | 0x0D => replyTime s p
  | _ => s

-- arrival, forwarding, returns (R310, R312)

/-- Floods: packets that every module takes and passes on (R310). -/
def isFlood (p : Packet) : Bool := p.kind == 0x0B || p.kind == 0x0C || (p.kind == 9 && opCode p == atlHeartbeat)

/-- A packet for another module goes on with one hop less, or back when none is left (R308, R312). -/
def forward (s : State) (p : Packet) : State :=
  if p.pver ≠ 3 then sendPacket s p
  else if p.ttl ≤ 1 then sendPacket s (returned p 4 p.edition)
  else sendPacket s { p with ttl := p.ttl - 1 }

/-- A ROUTE flood is passed on (R310, R311); the tables come with ROUTE. A neighbour's word that its ID is valid now stands in LNK_PEER (R320). -/
def relayRoute (s : State) (k : Nat) (p : Packet) : State :=
  let s := if opCode p = 1 && p.ttl = 64 then modLink s k (fun l => { l with peerIdValid := true, peerId := opArg p }) else s
  relay s k p

/-- PACKET_RETURN for a packet this module sent (R312): it is sent again, after an edition bounce resolved anew. -/
def resend (s : State) (p : Packet) : State :=
  let again : Packet := { p with ret := 0, dst := p.src, src := s.glb.moduleId, ttl := 64 }
  match p.ret with
  | 1 =>
    (match partOfVdid s p.vdid with
     | none => s
     | some n =>
       let q := { again with edition := (partOf s n).vd.edition }
       let to_ := resolveTo s n q
       if (partOf s n).ctx.state = .lost || (partOf s n).ctx.state = .destroying then s
       else if to_ = s.glb.moduleId && (p.kind ≤ 3 || p.kind = 5 || p.kind = 6) then deliverVd s n q
       else sendPacket s (if to_ = s.glb.moduleId then q else { q with dst := to_ }))
  | 4 =>
    let s := { s with fab := { s.fab with event := s.fab.event ||| 4 } }
    let s := event s 5 1 2 0 10 0 none none [BitVec.ofNat 64 (again.dst * 2 ^ 32), BitVec.ofNat 64 again.edition, 0]
    sendPacket s again
  | _ => sendPacket s again

/-- PACKET_RETURN (R266, R312): a returned packet reaches its sender. -/
def execPacketReturn (p : Packet) (s : State) : Out :=
  if p.ret = 0 || p.dst ≠ s.glb.moduleId || !s.glb.idValid then .next s else .next (resend s p)

/-- What a packet that has arrived over link `k` comes to. One of another header version is passed on by its destination alone (R296), and rejected where
that is this module: the spec gives it no other error path (R13; DESIGN CHOICE, log 167). -/
def arrive (s : State) (k : Nat) (p : Packet) : State :=
  if p.pver ≠ 3 then (if !s.glb.idValid || p.dst = s.glb.moduleId then s else forward s p)
  else if isFlood p then (if p.kind = 0x0B then relayRoute s k p else deliverModule s k p)
  else if !s.glb.idValid then s
  else if p.dst ≠ s.glb.moduleId then forward s p
  else if p.ret ≠ 0 then resend s p
  else if p.maddr then deliverModule s k p
  else
    let s := admitVd s p
    -- a share that starts here takes the messages that came before it
    if p.kind = 8 && opCode p = ctlShareStart then (match partOfVdid s p.vdid with | some n => retryHeld s n | none => s) else s

/-- FABRIC_PACKET_RECEIVE (R266, R308–R312): a whole packet has arrived over a link; its flits leave the receive buffer. A packet may be given as a
command without its frames (DEDUCED, log 51). -/
def execFabricPacketReceive (k : Nat) (p : Packet) (s : State) : Out :=
  if k > 23 || !linkUp (linkOf s k) then .next s
  else
    let s := modLink s k (fun l => takePacket l p)
    let s := arrive { s with fab := { s.fab with via := some k } } k p
    .next { s with fab := { s.fab with via := none } }

/-- No link may carry a packet toward its destination (R312). -/
def unroutable (s : State) (p : Packet) : Bool := !(List.range 24).any (fun k => mayLeave s k p)

/-- ROUTE_FAIL_TIMEOUT (R312, R383): after 2 ms without a route packets return to their senders, this module's own to be sent again; after 10 ms
the destination has failed. -/
def execRouteFailTimeout (dst : Nat) (ms : Nat) (s : State) : Out :=
  let stuck := s.fab.out.filter (fun p => p.dst == dst && unroutable s p)
  if dst = s.glb.moduleId || ms < 2 then .next s
  else
    let away := stuck.filter (fun p => p.src != s.glb.moduleId && p.ret == 0)
    let s := { s with fab := { s.fab with out := s.fab.out.filter (fun p => !away.contains p) ++ away.map (fun p => returned p 2 p.edition) } }
    if ms < 10 then .next s
    else
      let gone (p : Packet) : Bool := p.dst == dst && unroutable s p
      .next (moduleGone { s with fab := { s.fab with out := s.fab.out.filter (fun p => !gone p) } } dst)

end Sys2Proof.Machine
end

