-- ==== Sys2Proof/Machine/Reset.lean ====
section
/-! DEFINITION. Resets of the module and what survives them (R385, R443, R446, R447). -/

namespace Sys2Proof.Machine

/-- What a channel keeps: repairs and retirements recorded in flash (R143–R145, R385); through a warm reset also the counts that run from
power-on (R152). -/
def keptChan (warm : Bool) (c : Chan) : Chan :=
  { ce := if warm then c.ce else 0, ue := if warm then c.ue else 0, retired := c.retired, spares := c.spares, spareTotal := c.spareTotal, retirePending := decide (c.retired.length ≥ 512)
    redirect := if warm then c.redirect else [] }

/-- While no ID is valid a module is named 0 (R35): the map and the ranges of a virtual device that lies on this module alone. -/
def unnamePart (id : Nat) (p : Part) : Part :=
  if p.vd.members.length = 1 then renamePart id 0 p else p

/-- What a warm reset leaves of a partition (DEDUCED, log 57): its place in the Atlas, which its arbiter gives back with its slices at step 8
of R386, and the placement of its ranges, which keep it (R281). Everything the module's own units held of it is gone. -/
def keptPart (p : Part) : Part :=
  if !p.vd.used then {}
  else
    { vd := { p.vd with heldPkts := [], bounced := [], preparing := none, queued := [], overlap := false }
      ctx := if p.ctx.state = .destroying then {} else p.ctx
      vf := { exposedA := p.vf.exposedA, exposedB := p.vf.exposedB, active := p.vf.active }
      ranges := p.ranges, residence := p.residence, graphs := p.graphs, colls := p.colls
      str := { tokens := p.str.tokens, rings := tabMapV (fun _ r => { r with reserved := 0, quota := 0, asking := false, asks := [], waiting := [] }) p.str.rings, away := p.str.away, tablePlaced := p.str.tablePlaced, verdicts := p.str.verdicts }
      journal := { nextJseq := p.journal.nextJseq }
      carve := { areas := p.carve.areas, migrated := p.carve.migrated }
      counters := p.counters }

/-- A slice at a warm reset (R386): an assigned one leaves its partition with a return mark; one on its way to FREE is still to be erased; one in test
is tested again before it leaves HELD (R395). -/
def keptSlice (x : Slice) : Slice :=
  match x.state with
  | .assigned => { x with state := .held, ret := true, pending := false, testing := false }
  | .releasing => { x with state := .scrubbing, pending := false }
  | _ => { x with pending := false, asked := false }

/-- The always-on domain: the Meridian count, the pins and the sensors (R26, R443); in the standby converter's care they outlast PWR_EN. -/
def keptPower (p : Power) : Power :=
  { junction := p.junction, stackTs := p.stackTs, inlet := p.inlet, coldPlate := p.coldPlate, vin := p.vin, iin := p.iin
    throttleLow := p.throttleLow, converting := p.converting, pwrEn := p.pwrEn, thermal := p.thermal, cooling := p.cooling, modRstLow := p.modRstLow
    meridian := p.meridian, frac := p.frac, slew := p.slew, halfRate := p.halfRate }

/-- A host port keeps its PCIe link through a warm reset (R446). -/
def keptPort (p : Port) : Port := { link := p.link, gen := p.gen, width := p.width, flit := p.flit, perst := p.perst }

/-- The counts of a link, which are never cleared while power lasts (R415). -/
def keptLink (l : Link) : Link := { corr := l.corr, tagfail := l.tagfail, uncorr := l.uncorr, replays := l.replays, swaps := l.swaps }

/-- The warm reset (R385): all but the always-on domain, fuses and flash, RSEQ, the module ID, repairs and retirements, and the crash dump (DEDUCED, log 107) (DEDUCED, log 109). -/
def warmReset (s : State) : State :=
  { State.reset with
    pending := s.pending
    chans := tabMapV (fun _ c => keptChan true c) s.chans
    granules := tabMapV (fun _ g => g) s.granules
    slices := tabMapV (fun _ x => keptSlice x) s.slices
    parts := tabMapV (fun n p => if n < 64 then unnamePart s.glb.moduleId (keptPart p) else {}) s.parts
    ports := tabMapV (fun _ p => keptPort p) s.ports
    links := tabMapV (fun _ l => keptLink l) s.links
    fab := { modidReg := if s.glb.idValid then s.glb.moduleId else s.fab.modidReg
             reclaim := s.glb.idValid || s.fab.reclaim, abortCount := s.fab.abortCount }
    pwr := keptPower s.pwr
    err := { dumpValid := s.err.dumpValid, dumpReason := s.err.dumpReason, dumpBytes := s.err.dumpBytes }
    sec := { latched := s.sec.latched }
    nv := s.nv
    glb := { cold := false, stage := if s.pwr.modRstLow then 3 else 4, bootRef := s.pwr.meridian }
    hostOut := s.hostOut, msix := s.msix, reads := s.reads, answers := s.answers, resp := s.resp, draws := s.draws }

/-- A slice at a cold reset: only retirement, recorded in flash, is kept. -/
def coldSlice (x : Slice) : Slice := if x.state = .retired then { state := .retired } else {}

/-- The cold reset (R385, R447): everything but fuses and flash; while VIN is present the standby domain runs on (R443). -/
def coldReset (s : State) : State :=
  { State.reset with
    pending := s.pending
    chans := tabMapV (fun _ c => keptChan false c) s.chans
    slices := tabMapV (fun _ x => coldSlice x) s.slices
    pwr := { keptPower s.pwr with converting := false }
    sec := { latched := s.sec.latched }
    nv := s.nv
    hostOut := s.hostOut, msix := s.msix, reads := s.reads, answers := s.answers, resp := s.resp, draws := s.draws }

/-- Main conversion starts (R444 steps 1 to 4, R446): the rails come up, and Cartouche is released unless MOD_RST_N is low. -/
def startConversion (s : State) : State :=
  { s with
    pwr := { s.pwr with converting := true, thermal := false, cooling := false }
    sec := { s.sec with alarmN := false }
    glb := { s.glb with cold := true, stage := if s.pwr.modRstLow then 3 else 4, bootRef := s.pwr.meridian } }

/-- The main conversion is lost: thermal shutdown, loss of input power (R383, R397, R438). Nothing on the module runs on. -/
def powerLost (s : State) : State := coldReset s

-- the crash dump (R389, R390)

/-- The dump is written unless one is held (R389, R390). Its length is open (DESIGN CHOICE, log 58). -/
def writeDump (s : State) (reason : Nat) : State :=
  if s.err.dumpValid then event s 10 5 5 0 10 0 none none [BitVec.ofNat 64 s.pwr.meridian, 0, 0]
  else
    let (d, s) := draw s
    { s with err := { s.err with dumpValid := true, dumpReason := reason, dumpBytes := 4096 + Config.dumpLength d % (0x20000000 - 4095) } }

/-- A failed module's dump and warm reset (R384, R386 steps 1 to 4). -/
def dumpAndReset (s : State) (reason : Nat) : State := warmReset (writeDump s reason)

end Sys2Proof.Machine
end

