-- ==== Sys2Proof/Machine/Recovery.lean ====
section
/-! DEFINITION. Error reporting, hangs, failed parts and their recovery, the crash dump (R376–R390, R395, R396). -/

namespace Sys2Proof.Machine

-- error records (R376)

/-- FOLD_WINDOW_END (R376): one second has passed since the window's first event; its record is written. -/
def execFoldWindowEnd (cls code utype uindex vdid : Nat) (s : State) : Out :=
  let mine (r : ErrRec) : Bool := r.cls == cls && r.code == code && r.utype == utype && r.uindex == uindex && r.vdid == vdid
  match s.err.folds.find? mine with
  | none => .next s
  | some r => .next (writeRecord { s with err := { s.err with folds := s.err.folds.filter (fun x => !mine x) } } r)

/-- ERR_RING_CIDX_WRITE (R376): ring space is freed and waiting records enter; a count beyond PIDX or below the last written is ignored. -/
def execErrRingCidxWrite (v : W32) (s : State) : Out :=
  let e := s.err
  if (v.toNat + 2 ^ 32 - e.cidx) % 2 ^ 32 > (e.pidx + 2 ^ 32 - e.cidx) % 2 ^ 32 then
    .next { s with err := { e with cidxLog := true } }
  else .next (ringDrain (s.nv.rseq + 1 - e.ringRseq) { s with err := { e with cidx := v.toNat } })

-- hangs (R378–R380)

/-- A hang declared of a context (R378, R380): the HANG record, and the loss with S_TIMEOUT; a context that is not ACTIVE is left alone (R395). -/
def declareHang (s : State) (n code : Nat) (detail : List W64) : State :=
  if (partOf s n).ctx.state ≠ .active then s
  else loseCtx (event s 9 4 code sTimeout 10 0 (some n) none detail) n sTimeout none 0 4 false

/-- ERR_HANG (R378, R395): GO has cleared by the time the register is next read. -/
def execErrHang (n : Nat) (s : State) : Out :=
  let s := { s with err := { s.err with hangPart := n % 64 } }
  if n < 64 && (partOf s n).vd.used then .next (declareHang s n 1 []) else .next s

/-- Waits from which one can follow waits for ever: those whose target waits too, again and again, with fuel. -/
def liveWaits : Nat → List WaitEdge → List WaitEdge
  | 0, l => l
  | k + 1, l => liveWaits k (l.filter (fun e => e.waitsFor.any (fun t => l.any (fun x => x.waiter == t))))

/-- The walk along live waits from one of them, with fuel. -/
def waitWalk (l : List WaitEdge) : Nat → WaitEdge → List WaitEdge
  | 0, _ => []
  | k + 1, e => e :: (match l.find? (fun x => e.waitsFor.contains x.waiter) with | some x => waitWalk l k x | none => [])

/-- A cycle among waits, or nothing (R380). Which of several it is is no matter of architecture (log 12). -/
def waitCycle (l : List WaitEdge) : List WaitEdge :=
  match liveWaits l.length l with
  | [] => []
  | e :: es =>
    match (waitWalk (e :: es) (l.length + 1) e).getLast? with
    | none => []
    | some x =>
      -- the walk's last wait lies on a cycle: once around from it
      let round := (waitWalk (e :: es) (l.length + 1) x).drop 1
      x :: round.takeWhile (fun y => y != x)

/-- A wait of the cycle as the record names it (R374). -/
def waitWord (e : WaitEdge) : W64 := BitVec.ofNat 64 (e.kind % 16 * 2 ^ 60 + e.waiter % 2 ^ 32)

/-- WFG_SWEEP (R379, R380): the arbiter of a virtual device over more than four modules assembles a sweep. Waiters are numbered so that tasks and
commands differ: a command's is its SEQ plus 2^32. -/
def execWfgSweep (vdid : Nat) (waits : List WaitEdge) (us : Nat) (s : State) : Out :=
  match partOfVdid s vdid with
  | none => .next s
  | some n =>
    let vd := (partOf s n).vd
    if !isArbiter vd || vd.members.length ≤ 4 then .next s
    else
      let before := tabGet [] s.err.prevSweep vdid
      let s := { s with err := { s.err with sweepUs := Nat.min us 0xFFFF, prevSweep := tabSet [] s.err.prevSweep vdid waits } }
      let lasting := waits.filter (fun e => before.any (fun x => x.kind == e.kind && x.waiter == e.waiter && x.inst == e.inst))
      match waitCycle lasting with
      | [] => .next s
      | c =>
        if (partOf s n).ctx.state ≠ .active then .next s
        else
          let s := declareHang s n 2 ((c.take 3).map waitWord)
          .next { s with err := { s.err with declared := satAdd 0xFFFF s.err.declared 1 } }

-- processors and engines (R381)

/-- PROCESSOR_WATCHDOG_EXPIRY (R374, R381, R396): CP0–CP3 and MP have one. -/
def execProcessorWatchdogExpiry (p : Nat) (s : State) : Out :=
  if p > 4 || s.err.failing.isSome then .next s
  else .next (moduleFails (event s 7 5 4 0 9 p none none []) 2)

/-- ENGINE_STALL (R374, R381). -/
def execEngineStall (e : Nat) (s : State) : Out :=
  if e > 15 || s.err.failing.isSome then .next s else .next (moduleFails (event s 7 5 5 0 8 e none none []) 1)

/-- CARTOUCHE_MONITOR_TIMEOUT (R381): a failure of the module. -/
def execCartoucheMonitorTimeout (s : State) : Out :=
  if s.err.failing.isSome then .next s else .next (moduleFails s 1)

-- declared failures (R383, R384)

/-- FAILURE_DECLARATION (R272, R384): a declaration that names this module makes it dump and reset; one that names another member marks it absent,
and the arbiter does so with a recovery edition. -/
def execFailureDeclaration (vdid modId edition : Nat) (s : State) : Out :=
  match partOfVdid s vdid with
  | none => .next s
  | some n =>
    if modId = s.glb.moduleId then (if s.err.failing.isSome then .next s else .next (moduleFails s 1))
    else
      let s := memberFails s n modId
      if isArbiter (partOf s n).vd || !editionLater edition (partOf s n).vd.edition then .next s
      else .next (applyEdition s n edition)

/-- ISOLATION_TIMEOUT (R384): no other module of the virtual device within reach for 10 ms; its slices here abort and are held until the arbiter
returns them. The held slices stay assigned, their rank absent in this module's map (DEDUCED, log 59). -/
def execIsolationTimeout (vdid : Nat) (s : State) : Out :=
  match partOfVdid s vdid with
  | none => .next s
  | some n =>
    let vd := (partOf s n).vd
    if vd.members.length ≤ 1 || !losable s n then .next s
    else
      let s := loseHere s n sContextLost none 0 true
      .next (modVd s n (fun v => { v with members := v.members.map (fun m => if m.rank = v.rank then { m with present := false } else m) }))

-- memory lost and given back (R281, R386, R387)

/-- Slices with a return mark for a partition that are FREE go back to it with what lies on them (R264, R386 step 8). -/
def returnSlices (s : State) (n : Nat) : State :=
  let ks := tabKeys (fun _ x => x.ret && x.owner == n && x.state == .free) s.slices
  let chans := (ks.filter isMemory).map (· - 64)
  -- its granules were kept; their Legend entries were not
  let secure := (partOf s n).vd.secure
  let s := (scratchGranules s n).foldl (fun s i => setLegend s (.llm i) n rightsTenant secure secure) s
  spoilTargets (joinSlices s n ks []) n (fun t => t.1 == 1 || chans.contains t.2)

/-- A rank is back: at once here, for the others at a new edition (R386 step 8). -/
def rankBack (s : State) (n rank : Nat) : State :=
  let s := if rank = (partOf s n).vd.rank then returnSlices s n else s
  let me (v : Vd) : Vd := { v with members := v.members.map (fun m => if m.rank = rank then { m with present := true } else m) }
  let s := modVd s n me
  let vd := (partOf s n).vd
  let s := if rank = vd.rank && setCounts vd (ownCounts s n) != vd then countsChanged s n else s
  -- the front's Cartouche hands the keys to a module that rejoins, the arbiter's where the front is the one (R360)
  let giver := if rank = (partOf s n).vd.frontRank then isArbiter (partOf s n).vd else (partOf s n).vd.front
  let s := match (partOf s n).vd.members.find? (fun m => m.rank == rank) with
    | some m =>
      let s := if giver && m.modId != s.glb.moduleId && (partOf s n).keys.newest != 0 then sendKeys s n m.modId else s
      -- a standby that returns receives the whole fence table (R236)
      if vd.front && vd.standbyRank = some rank && (partOf s n).fences.exist then sendFenceTable s n m.modId else s
    | none => s
  if isArbiter (partOf s n).vd then recoveryEdition s n (.present rank) else s

-- ranges placed anew (R388)

/-- A lost range placed on this partition's own slices, its contents gone (R388): the range's slots on `bad` channels, or the whole range where its
module is gone. -/
def replaceRange (s : State) (n : Nat) (bad : List Nat) (r : Range) : Option State :=
  match chooseExtent s n 0 ((placeSlices s n).filter (fun g => !bad.contains g)) r.n (r.len / r.n) with
  | some (a, ds) =>
    let r' : Range := { r with modId := s.glb.moduleId, offset := a, targets := ds.map (fun d => (0, false, d)) }
    some (tellRange (ds.foldl (fun s d => poisonSpan s (chanPa d + a * 4096) (r.len / r.n * 4096)) (rewriteHere s n r')) n r.base)
  | none => none

/-- Channels of this module that are kept from a partition by a return mark. -/
def heldChans (s : State) (n : Nat) : List Nat := (tabKeys (fun k x => isMemory k && x.ret && x.owner == n && x.state == .held) s.slices).map (· - 64)

/-- Ranges of a partition that lie on a channel left HELD, or on a module that is absent. -/
def lostRanges (s : State) (n : Nat) : List Range :=
  let bad := heldChans s n
  (partOf s n).ranges.filter (fun r => r.kind == 1 &&
    (if r.modId = s.glb.moduleId then r.targets.any (fun t => t.1 == 0 && bad.contains t.2.2)
     else !(partOf s n).vd.members.any (fun m => m.modId == r.modId && m.present)))

/-- Every lost range placed anew, or nothing. -/
def replaceAll (s : State) (n : Nat) : List Range → Option State
  | [] => some s
  | r :: rs => match replaceRange s n (heldChans s n) r with | some s => replaceAll s n rs | none => none

/-- Lost ranges placed on the survivors; without room the context stays RECOVERING and a record says so (R388). -/
def replaceLost (s : State) (n : Nat) : State :=
  match lostRanges s n with
  | [] => s
  | rs => match replaceAll s n rs with
    | some s => recoveryEdition s n .other
    | none => event s 10 4 4 0 10 0 (some n) none [BitVec.ofNat 64 s.pwr.meridian, BitVec.ofNat 64 (partOf s n).vd.edition, 0]

/-- RECOVERY_REPLACE (R388). -/
def execRecoveryReplace (n : Nat) (s : State) : Out :=
  if (partOf s n).ctx.state ≠ .recovering || !isArbiter (partOf s n).vd then .next s else .next (replaceLost s n)

/-- A module that was being reset is READY, or counts as removed (R249). -/
def resetOver (s : State) (modId : Nat) : State := cqSettle { s with cq := { s.cq with waitReset := s.cq.waitReset.filter (· != modId) } }

/-- MODULE_RECOVERY (R386, R388): a failed module's partition is back at a new edition, or not by 3.0 s, when the arbiter places its ranges on the
survivors. A partition that is back on this module takes the edition given. -/
def execModuleRecovery (vdid rank edition : Nat) (returned : Bool) (s : State) : Out :=
  match partOfVdid s vdid with
  | none => .next s
  | some n =>
    let vd := (partOf s n).vd
    match vd.members.find? (fun m => m.rank == rank) with
    | none => .next s
    | some m =>
      if !returned then
        if isArbiter vd && (partOf s n).ctx.state = .recovering then .next (replaceLost s n) else .next s
      else if rank = vd.rank && !s.glb.ready then .next s
      else
        let s := rankBack s n rank
        let s := if rank = vd.rank && !isArbiter (partOf s n).vd then applyEdition s n edition else s
        let s := event s 10 0 2 0 10 0 (some n) none [BitVec.ofNat 64 s.pwr.meridian, BitVec.ofNat 64 (partOf s n).vd.edition, 0]
        .next (resetOver s m.modId)

/-- RESET_READY_TIMEOUT (R249): a module of a context under destruction is not READY within 10 s of its reset's start: it counts as removed. -/
def execResetReadyTimeout (vdid modId : Nat) (s : State) : Out :=
  match partOfVdid s vdid with
  | none => .next s
  | some n => if (partOf s n).ctx.state ≠ .destroying then .next s else .next (resetOver s modId)

-- stacks (R383, R387)

/-- STACK_TRAINING_LOSS (R383). -/
def execStackTrainingLoss (g : Nat) (s : State) : Out :=
  if g ≥ 384 || !(chanOf s g).trained then .next s else .next (stackFails s (g / 32))

/-- STACK_CONTROLLER_STALL (R383). -/
def execStackControllerStall (stack : Nat) (s : State) : Out :=
  if stack ≥ 12 || !(List.range 32).any (fun i => (chanOf s (32 * stack + i)).trained) then .next s else .next (stackFails s stack)

/-- One channel of a retrained stack (R387 step 4): its contents are gone; it goes through SCRUBBING to FREE, or stays HELD for self-test. -/
def retrainChan (failed : List Nat) (s : State) (g : Nat) : State :=
  let s := clearSpan s (chanPa g) 0x80000000
  let k := 64 + g
  let st := (sliceOf s k).state
  if st = .retired then s
  else if failed.contains g then
    let s := if st = .free then moveSlice s k .held id else s
    if (sliceOf s k).state = .held then markSlice s k (fun x => { x with testing := true }) else s
  else
    let s := modChan s g (fun c => { c with trained := true })
    if (st = .held && !(sliceOf s k).testing) || st = .free then moveSlice s k .scrubbing id else s

/-- STACK_RECOVERY (R385, R387 steps 4 and 5): the stack is trained again and its repairs applied; ranges on a channel left HELD are placed anew. -/
def execStackRecovery (stack : Nat) (failedChannels : List Nat) (s : State) : Out :=
  if stack ≥ 12 || (List.range 32).any (fun i => (chanOf s (32 * stack + i)).trained) then .next s
  else
    let s := (List.range 32).foldl (fun s i => retrainChan failedChannels s (32 * stack + i)) s
    let s := event s 10 0 2 0 4 stack none none [BitVec.ofNat 64 s.pwr.meridian, 0, 0]
    .next ((livePartsOf s).foldl (fun s n => if isArbiter (partOf s n).vd && (partOf s n).ctx.state = .recovering &&
      (heldChans s n).any (fun g => g / 32 == stack) then replaceLost s n else s) s)

-- the crash dump (R389, R390)

/-- CRASH_DUMP (R384, R389, R395): a failed module writes its dump, by ME under CP0 or by Cartouche, and warm-resets; a dump that firmware asks for
resets nothing. -/
def execCrashDump (reason : Nat) (byCartouche : Bool) (s : State) : Out :=
  match s.err.failing with
  | some r => .next (dumpAndReset s r)
  | none => if reason = 4 && !byCartouche then .next (writeDump s 4) else .next s

/-- ERR_DUMP_DEST (R390): the dump is copied to host memory; its bytes are open (log 58). -/
def execErrDumpDest (addr : W64) (s : State) : Out :=
  if !s.err.dumpValid then .next { s with err := { s.err with dumpDest := addr.toNat / 4096 * 4096 } }
  else
    let (d, s) := draw s
    let s := hostBulk s 64 (addr.toNat / 4096 * 4096) ((List.range s.err.dumpBytes).map (Config.freeByte d))
    .next { s with err := { s.err with dumpDest := addr.toNat / 4096 * 4096 } }

end Sys2Proof.Machine
end

