-- ==== Sys2Proof/Machine/Power.lean ====
section
/-! DEFINITION. Input, power cap, issue rates, cluster clocks, temperatures and Meridian time (R29, R133, R372, R397–R408, R412, R413, R437, R438, R448). -/

namespace Sys2Proof.Machine

-- caps and throttle reasons (R397, R399, R403)

/-- A cap limited to what R399 allows, in W. -/
def capLimit (w : Nat) : Nat := Nat.min 4000 (Nat.max 1500 w)

/-- The effective cap (R399). -/
def effectiveCap (p : Power) : Nat :=
  let c := Nat.min (capLimit p.driverW) (capLimit p.pldmW)
  let c := if p.throttleLow then Nat.min c (capLimit p.extW) else c
  if p.lowVin then Nat.min c 1500 else c

/-- Some cluster's issue rate or clock is held below what it would otherwise be (R403). -/
def heldBelow (s : State) : Bool := s.clusters.any (fun x => decide (x.2.rate < x.2.limit) || decide (x.2.clkCur < x.2.clkTarget))

/-- A throttle reason counted or not; entry to one writes its PLATFORM record (R403, R374) (DEDUCED, log 111). -/
def setReason (s : State) (k : Nat) (on : Bool) (reading : Nat) : State :=
  let s' := { s with pwr := { s.pwr with reasons := withBit s.pwr.reasons k on } }
  if on && !bitOf s.pwr.reasons k then event s' 7 1 1 0 10 0 none none [BitVec.ofNat 64 (k + reading % 2 ^ 32 * 2 ^ 32), 0, 0] else s'

/-- The reasons that follow from the caps (R399, R403, R413): POWER_CAP, INPUT_VOLTAGE and EXTERNAL. -/
def capReasons (s : State) : State :=
  let p := s.pwr
  let held := heldBelow s
  let cap := effectiveCap p
  let ext := p.throttleLow && capLimit p.extW == cap
  let s := setReason s 0 (held && (decide (p.pin > cap) || bitOf p.reasons 0)) p.pin
  let s := setReason s 4 (held && p.lowVin) p.vin
  setReason s 5 (held && ext) p.pin

/-- DROOP is counted while a cluster is held down or stretched by one (R402, R403). -/
def droopReason (s : State) : State := setReason s 3 (s.clusters.any (fun x => x.2.drooping.isSome || x.2.stretched)) 0

/-- A stack at 95 °C or above has not come down to 90 °C again (R412). -/
def stackHot (s : State) : Bool := s.chans.any (fun x => x.2.halfRate)
/-- THERMAL: the junction, or a stack (R401, R403, R412). -/
def thermalReason (s : State) : State := setReason s 2 (decide (s.pwr.junction ≥ 95) || stackHot s) s.pwr.junction

-- estimate and issue (R398, R400–R402)

/-- ACTIVITY_ESTIMATE (R398). -/
def execActivityEstimate (c : Nat) (watts : Nat) (s : State) : Out :=
  if c ≥ 64 then .next s else .next (modCluster s c (fun x => { x with actW := watts }))

/-- WEIGHT_REFIT (R398): the weights of the estimate. -/
def execWeightRefit (weights : List Nat) (s : State) : Out := .next { s with pwr := { s.pwr with weights := weights } }

/-- A core of a cluster drains its matrix queue for a pre-emption (R85, R400). -/
def drains (s : State) (c : Nat) : Bool := (List.range 16).any (fun i => (coreOf s (16 * c + i)).mode == .draining)

/-- One cluster's issue rate set by the power manager (R400): at most the cluster's limit, at least 8/64, or 32/64 in a drain, lowered by 1/64 at a
time; a droop's hold stays in force, and what it is restored to changes. -/
def setRate (s : State) (c r : Nat) : State :=
  let x := clusterOf s c
  let cur := x.drooping.getD x.rate
  let low := Nat.max (if drains s c then 32 else 8) (cur - 1)
  let r := Nat.min x.limit (Nat.max low r)
  modCluster s c (fun y => match y.drooping with
    | some _ => { y with drooping := some r, rate := Nat.min (if drains s c then Nat.max 32 y.rate else y.rate) r }
    | none => { y with rate := r })

/-- ISSUE_RATE_UPDATE (R399, R400): `pin` is the input power over the last 1 ms, `rates` what the power manager asks of clusters. -/
def execIssueRateUpdate (rates : List (Nat × Nat)) (pin : Nat) (s : State) : Out :=
  let s := { s with pwr := { s.pwr with pin, pinSum := s.pwr.pinSum + pin, pinCount := s.pwr.pinCount + 1 } }
  .next (capReasons ((rates.filter (fun x => decide (x.1 < 64))).foldl (fun s x => setRate s x.1 x.2) s))

/-- The clock that a cluster runs at or will wake at. -/
def clockDue (x : Cluster) : Nat := x.clkNext.getD x.clkCur

/-- A cluster's clock set (R29, R408): its cores stall and its interpolator has lost the count; a power-gated one takes it at its wake (R413). -/
def setClock (s : State) (c f : Nat) : State :=
  if (sliceOf s c).gated then modCluster s c (fun y => { y with clkNext := some f })
  else modCluster s c (fun y => { y with clkCur := f, clkNext := none, synced := y.synced && decide (f = y.clkCur) })

/-- CLOCK_STEP (R29, R401, R408): 100 MHz down to 600 MHz, for the cap or the junction; or up to the target. -/
def execClockStep (c : Nat) (down : Bool) (s : State) : Out :=
  let x := clusterOf s c
  let due := if down then (x.rate == 8 && decide (s.pwr.pin > effectiveCap s.pwr)) || decide (s.pwr.junction ≥ 95) else decide (x.rate ≥ 48)
  let f := if down then Nat.max 600 (clockDue x - 100) else Nat.min x.clkTarget (clockDue x + 100)
  if c ≥ 64 || !due || (down && clockDue x ≤ 600) || (!down && clockDue x ≥ x.clkTarget) then .next s
  else .next (capReasons (setClock s c f))

/-- DROOP (R402, R413). -/
def execDroop (c : Nat) (percent : Nat) (s : State) : Out :=
  if c ≥ 64 then .next s
  else if percent < 5 then .next (droopReason (modCluster s c (fun y => { y with stretched := false })))
  else if drains s c then .next (droopReason (modCluster s c (fun y => { y with
    drooping := some (y.drooping.getD y.rate), rate := Nat.min y.rate 32, stretched := true })))
  else .next (droopReason (modCluster s c (fun y => { y with
    drooping := some (y.drooping.getD y.rate), rate := Nat.min y.rate 16, stretched := y.stretched || decide (percent ≥ 8) })))

/-- DROOP_RESTORE (R402): 4/64 more, up to the rate the power manager wants. -/
def execDroopRestore (c : Nat) (s : State) : Out :=
  match (clusterOf s c).drooping with
  | none => .next s
  | some r =>
    let up := Nat.min r ((clusterOf s c).rate + 4)
    .next (droopReason (modCluster s c (fun y => { y with rate := up, drooping := if up = r then none else some r })))

-- input (R397, R399, R448)

/-- Main conversion stops by loss of input power: a failure of the module, of which nothing runs on; bring-up begins again at the next rise of PWR_EN
(R383, R397, R452). With no voltage at all the standby domain is gone too (R443). -/
def inputLost (s : State) : State :=
  let s := powerLost s
  if s.pwr.vin = 0 then { s with pwr := { pwrEn := s.pwr.pwrEn, modRstLow := s.pwr.modRstLow, throttleLow := s.pwr.throttleLow }, sec := { s.sec with latched := [] } } else s

/-- The PLATFORM record of an input voltage out of range (R397). -/
def vinRecord (s : State) : State := event s 7 1 3 0 10 0 none none [BitVec.ofNat 64 (s.pwr.vin % 2 ^ 32 * 2 ^ 32), 0, 0]

/-- VIN_CHANGE (R397, R452): the input is at `mv10` (in 10 mV) and has been beyond its last threshold for `us`. -/
def execVinChange (mv10 : Nat) (us : Nat) (s : State) : Out :=
  let s := { s with pwr := { s.pwr with vin := mv10 } }
  if (mv10 < 4400 && us ≥ 1000) || (mv10 > 6200 && us ≥ 100) then .next (inputLost s)
  else if !s.pwr.converting then .next s
  else if mv10 < 4600 && us ≥ 100 then
    (if s.pwr.lowVin then .next s else .next (capReasons (vinRecord { s with pwr := { s.pwr with lowVin := true } })))
  else
    let s := if mv10 > 5950 && us ≥ 100 then vinRecord s else s
    .next (if mv10 ≥ 4700 && us ≥ 10000 then capReasons { s with pwr := { s.pwr with lowVin := false } } else s)

/-- INPUT_CURRENT_LIMIT (R397): currents in 10 mA. While a limit is passed the issue rates come down by 1/64 at each call (DESIGN CHOICE, log 74). -/
def execInputCurrentLimit (meanMa10 peakMa10 : Nat) (s : State) : Out :=
  let overs := meanMa10 > 9000 || peakMa10 > 10000
  let s := { s with pwr := { s.pwr with iin := meanMa10, iinSum := s.pwr.iinSum + meanMa10, iinCount := s.pwr.iinCount + 1 } }
  let s := if overs then (List.range 64).foldl (fun s c => setRate s c 0) s else s
  .next (capReasons (setReason s 1 overs meanMa10))

/-- THROTTLE_N (R399). -/
def execThrottleN (low : Bool) (s : State) : Out := .next (capReasons { s with pwr := { s.pwr with throttleLow := low } })

/-- PLDM_SET_POWER_CAP (R399, R414, R448): MP serves it once it runs. -/
def execPldmSetPowerCap (w : Nat) (s : State) : Out :=
  if s.glb.stage < 6 then .next s else .next (capReasons { s with pwr := { s.pwr with pldmW := capLimit w } })

-- temperatures (R401, R412, R437, R438)

/-- A thermal shutdown (R438): its record, ALARM_N, and conversion stops; it restarts only after PWR_EN has gone low and high. -/
def shutdown (s : State) (sensor celsius : Nat) : State :=
  let s := event s 7 5 2 0 10 0 none none [BitVec.ofNat 64 (sensor % 2 ^ 16 + celsius % 2 ^ 32 * 2 ^ 32), 0, 0]
  let s := powerLost s
  { s with pwr := { s.pwr with thermal := true }, sec := { s.sec with alarmN := true } }

/-- The temperature, in °C, at which a sensor shuts the module down (R437): 0 junction, 1 stack, 2 conversion stage. -/
def shutdownAt (sensor celsius : Nat) : Bool :=
  (sensor == 0 && decide (celsius ≥ 115)) || (sensor == 1 && decide (celsius ≥ 105)) || (sensor == 2 && decide (celsius ≥ 125))

/-- The derated capacity of a stack's channel at a temperature, each step left 5 °C below its threshold (R412). -/
def stackCapacity (old t : Nat) : Nat :=
  if t ≥ 95 || (old = 420 && t > 90) then 420
  else if t ≥ 85 || (old ≤ 780 && t > 80) then 780
  else 840

/-- A stack's temperature at its 32 channels (R412). -/
def stackWarm (s : State) (g t : Nat) : State :=
  modChan s g (fun c => let k := stackCapacity c.capacity t; { c with capacity := k, halfRate := decide (k = 420) })

/-- TEMPERATURE_THRESHOLD (R401, R412, R437, R438): a reading of sensor 0 junction, 1 stack `unit`, 2 conversion stage, 3 cold plate, 4 inlet. -/
def execTemperatureThreshold (sensor unit celsius : Nat) (s : State) : Out :=
  let s := match sensor with
    | 0 => { s with pwr := { s.pwr with junction := celsius } }
    | 1 => if unit < 12 then { s with pwr := { s.pwr with stackTs := tabSet 0 s.pwr.stackTs unit celsius } } else s
    | 3 => { s with pwr := { s.pwr with coldPlate := celsius } }
    | 4 => { s with pwr := { s.pwr with inlet := celsius } }
    | _ => s
  if !s.pwr.converting then .next (if s.pwr.cooling && s.pwr.coldPlate ≤ 70 then startConversion s else s)
  else if shutdownAt sensor celsius then .next (shutdown s sensor celsius)
  else if sensor = 1 && unit < 12 then .next (thermalReason (rescale ((List.range 32).foldl (fun s i => stackWarm s (32 * unit + i) celsius) s)))
  else .next (thermalReason s)

/-- THERMAL_SHUTDOWN (R437, R438). -/
def execThermalShutdown (sensor celsius : Nat) (s : State) : Out :=
  if s.pwr.converting && shutdownAt sensor celsius then .next (shutdown s sensor celsius) else .next s

-- Meridian (R404–R408)

/-- Units of the fraction of a nanosecond, and the greatest slew, 200 ppm, in them for each nanosecond (R404). -/
def fracUnit : Nat := 2 ^ 32
def slewMax : Int := 858993

/-- The count after a step of 10 ns of the reference, under the slew, or at half rate (R404, R406). -/
def advanced (p : Power) : Nat :=
  let d : Int := 10 * ((fracUnit : Int) + p.slew)
  p.meridian * fracUnit + p.frac + (if p.halfRate then d / 2 else d).toNat

/-- Coarse readings at the end of a 100 ms window (R371, R372): means rounded to 50 W and to 1 A; held while a slice is erased. -/
def coarseUpdate (s : State) : State :=
  let p := s.pwr
  if s.slices.any (fun x => x.2.state == .scrubbing) then s
  else
    let mean (a k old : Nat) : Nat := if k = 0 then old else a / k
    { s with pwr := { p with
      coarsePin := (mean p.pinSum p.pinCount p.pin + 25) / 50 * 50
      coarseIin := (mean p.iinSum p.iinCount p.iin + 50) / 100 * 100
      coarseCnt := s.modCnt
      coarseClu := s.clusters.map (fun x => (x.1, x.2.counters))
      coarseConf := s.clusters.map (fun x => (x.1, x.2.conflict))
      coarseLines := s.chans.map (fun x => (x.1, x.2.lines))
      pinSum := 0, pinCount := 0, iinSum := 0, iinCount := 0 } }

/-- Module time has a source: a valid ID and a link that is UP (R406). -/
def timeLinked (s : State) : Bool := s.glb.idValid && s.links.any (fun x => linkUp x.2)

/-- MERIDIAN_TICK (R372, R403, R404): one reference tick. The durations of the reasons in force grow by it. -/
def execMeridianTick (s : State) : Out :=
  let a := advanced s.pwr
  let old := s.pwr.meridian
  let s := { s with pwr := { s.pwr with
    meridian := a / fracUnit, frac := a % fracUnit
    aligned := s.pwr.aligned && timeLinked s
    durations := (bitList 7 s.pwr.reasons).foldl (fun t k => tabMod 0 t k (· + 10)) s.pwr.durations } }
  if s.pwr.meridian / 100000000 ≠ old / 100000000 then .next (coarseUpdate s) else .next s

/-- The offset of one exchange (R405). -/
def offsetOf (t1 t2 t3 t4 : Nat) : Int := (((t2 : Int) - t1) - ((t4 : Int) - t3)) / 2

/-- The slew that removes an offset: within 1 ms up to 200 ns, at the greatest rate above (R405). -/
def slewFor (off : Int) : Int :=
  let r := off * (fracUnit : Int) / 1000000
  if r > slewMax then slewMax else if r < -slewMax then -slewMax else r

/-- The count stepped, or held at half rate: STEPPED, and a STEP record in every trace unit that runs (R406, R421, R422; its SOURCE is open: DESIGN CHOICE,
log 138). -/
def timeStep (s : State) (p : Power) : State :=
  let old := s.pwr.meridian
  let rec_ (s : State) (t : Nat) : State := outState s (execTraceRecord t 0xF3 0 false 0 [BitVec.ofNat 64 old, BitVec.ofNat 64 p.meridian] s)
  (List.range 8).foldl rec_ { s with pwr := { p with stepped := true, aligned := true } }

/-- TIME_EXCHANGE (R405, R406): stamps of one exchange with the parent; every sixteen give a median, which is stepped or slewed out (log 73). -/
def execTimeExchange (t1 t2 t3 t4 : Nat) (s : State) : Out :=
  if isRoot s || !s.fab.rootValid || !timeLinked s || (routeMask s s.fab.rootId).isNone then .next s
  else
    let l := s.pwr.samples ++ [offsetOf t1 t2 t3 t4]
    if l.length < 16 then .next { s with pwr := { s.pwr with samples := l } }
    else
      let off := medianInt l
      let p := { s.pwr with samples := [], offset := off }
      let stepTo (p : Power) : Power := { p with meridian := (p.meridian + off).toNat, slew := 0, halfRate := false, everAligned := true }
      if !p.everAligned || off > 10000 then .next (timeStep s (stepTo p))
      else if off < -10000 then .next (timeStep s { p with halfRate := true, slew := 0 })
      else .next { s with pwr := { p with halfRate := p.halfRate && decide (off < -200), slew := slewFor off, aligned := true } }

/-- INTERPOLATOR_RESYNC (R408, R421): a cluster that wakes has the count again, and writes its DISCONT record to the trace unit of its die. -/
def execInterpolatorResync (c : Nat) (stoppedAt : Nat) (cause : Nat) (s : State) : Out :=
  if c ≥ 64 || (clusterOf s c).synced then .next s
  else execTraceRecord (c / 16) 0xF1 0 false c [BitVec.ofNat 64 stoppedAt, BitVec.ofNat 64 (cause % 256)] (modCluster s c (fun x => { x with synced := true }))

end Sys2Proof.Machine
end

