-- ==== Sys2Proof/Machine/Maintain.lean ====
section
/-! DEFINITION. Maintenance of memories and slices: repair from backing, row repair, page retirement, patrol, erase, self-test and margining, and the issue of line slots (R126, R134, R140–R149, R392–R395, R409–R412). -/

namespace Sys2Proof.Machine

-- repair from backing (R392, R393)

/-- A line or word that waits for its repair: poisoned, in a range with a backing source. -/
def repairDue (s : State) (n pa : Nat) : Option Nat :=
  match rangeAt s pa backed with
  | some (m, r, va) =>
    let waits := tabGet 0 s.err.repairs (pa / 128 * 128) != 0 || memPoisoned s pa (if isStack pa then 128 else 64)
    if m = n && waits then some (r.backAddr + (va - r.base * 4096)) else none
  | none => none

/-- DETAIL of a repair's record: a stack line, or a word of a scratchpad granule. -/
def repairUnit (pa : Nat) : Nat × Nat × Nat := if isStack pa then (3, pa / 0x80000000, 7) else (5, (pa - llmBase) / 0x100000, 3)

/-- LINE_REPAIR (R139, R142, R392): the line is written anew from its backing source. -/
def execLineRepair (n pa : Nat) (data : List Byte) (s : State) : Out :=
  let size := if isStack pa then 128 else 64
  let pa := pa / size * size
  match repairDue s n pa with
  | none => .next s
  | some addr =>
    let s := memWrite s n pa ((data ++ List.replicate size 0#8).take size) false
    let key := pa / 128 * 128
    let s := { s with err := { s.err with repairs := tabMod 0 s.err.repairs key (fun k => Nat.max 1 k + 1) } }
    let s := if isStack pa then repairTrigger s pa else s
    let u := repairUnit pa
    .next (event s 1 3 9 0 u.1 u.2.1 (some n) none (memDetail pa 0 (if isStack pa then keygenOf (lineMeta s (pa / 128)) else 0) u.2.2 addr))

/-- LINE_REPAIR_FAIL (R383, R393): a line of a stack was not repaired, and counts among the stack's uncorrectable reads. -/
def execLineRepairFail (n pa : Nat) (s : State) : Out :=
  match repairDue s n pa with
  | none => .next s
  | some _ =>
    let s := backingFails { s with err := { s.err with repairs := tabSet 0 s.err.repairs (pa / 128 * 128) 0 } } pa
    .next (if isStack pa then noteUncor s pa else s)

-- rows and pages (R142–R145)

/-- A row mapped to its bank's next spare (R143). Its address within the channel is open (log 14). -/
def spareRow (g : Nat) (s : State) (row : Nat × Nat) : State :=
  let c := chanOf s g
  if !c.triggers.contains row || tabGet 0 c.spares row.1 ≥ 2 then s
  else
    let s := modChan s g (fun c => { c with
      spares := tabMod 0 c.spares row.1 (· + 1), spareTotal := c.spareTotal + 1
      triggers := c.triggers.filter (· != row), patrolSeen := c.patrolSeen.filter (fun x => x.1 != row) })
    event s 1 2 5 0 3 g (ownerOf s (chanPa g)) none (memDetail (chanPa g + Config.rowAt row.2 % 0x80000000) 0 0 7 0)

/-- A slice on which repairs are made now: not one that is HELD, where the self-test makes them, nor one in SCRUBBING (R149). -/
def repairable (s : State) (g : Nat) : Bool :=
  let st := (sliceOf s (64 + g)).state
  st == .free || st == .assigned || st == .releasing

/-- ROW_REPAIR (R142, R143, R149). -/
def execRowRepair (g bank row : Nat) (s : State) : Out :=
  if g ≥ 384 || !repairable s g then .next s else .next (spareRow g s (bank, row))

/-- A page of an assigned channel moved away: to a free page of the carve-out, else to a spill page in host memory (R144, R179). An entry that led to the
page leads on to the new one. -/
def redirectPage (s : State) (n g page : Nat) : State :=
  let src := chanPa g + page * 65536
  let dst := (freePage s n).getD (spillBase + unredirect s src)
  let s := spillOut (dropLines (copyPages n src dst 16 s) src 65536) n dst
  if s.chans.any (fun c => c.2.redirect.any (fun x => x.2 == src)) then
    { s with chans := tabMapV (fun _ c => { c with redirect := c.redirect.map (fun x => if x.2 = src then (x.1, dst) else x) }) s.chans }
  else modChan s g (fun c => { c with redirect := c.redirect ++ [(page, dst)] })

/-- A page lies in an extent that is being moved: the move carries its data (R149, R182). -/
def pageMoving (s : State) (g page : Nat) : Bool :=
  s.sur.moves.any (fun m => (partOf s m.n).ranges.any (fun r =>
    let t := r.targets.getD m.slot (1, false, 0)
    r.base == m.base && t.1 == 0 && t.2.2 == g && (meets [slotExtent r] (16 * page) 16).isSome)) ||
  s.parts.any (fun p => p.2.aways.any (fun a => a.copying && p.2.ranges.any (fun r =>
    r.base == a.base && r.targets.any (fun t => t.1 == 0 && t.2.2 == g) && (meets [slotExtent r] (16 * page) 16).isSome)))

/-- Something of a partition lies on a page of a channel. -/
def pageInUse (s : State) (n g page : Nat) : Bool := (meets (takenOn s n 0 g) (16 * page) 16).isSome

/-- PAGE_RETIRE (R144, R145, R149, R172, R182): the page of a failing row whose bank has no spare left. -/
def execPageRetire (g page : Nat) (s : State) : Out :=
  let c := chanOf s g
  if g ≥ 384 || page ≥ 32768 || !repairable s g || c.retired.contains page || !c.triggers.any (fun t => t.2 / 512 == page && decide (tabGet 0 c.spares t.1 ≥ 2)) then .next s
  else
    let n := ownerOf s (chanPa g)
    let used := match n with | some n => page < 32576 && pageInUse s n g page && !pageMoving s g page | none => false
    let s := match n, used with | some n, true => redirectPage s n g page | _, _ => s
    let s := modChan s g (fun c => { c with retired := c.retired ++ [page], triggers := c.triggers.filter (fun t => t.2 / 512 != page) })
    let s := event s 1 2 6 0 3 g n none (memDetail (chanPa g + page * 65536) 0 0 7 0)
    if (chanOf s g).retired.length < 512 || (chanOf s g).retirePending then .next s
    else .next (event (modChan s g (fun c => { c with retirePending := true })) 1 2 7 0 3 g n none (memDetail (chanPa g) 0 0 7 0))

/-- RETIRE_PENDING_TAKE (R145). -/
def execRetirePendingTake (g : Nat) (s : State) : Out :=
  let x := sliceOf s (64 + g)
  if g ≥ 384 || !(chanOf s g).retirePending || x.state ≠ .free || x.pending then .next s
  else .next (moveSlice s (64 + g) .held (fun x => { x with testing := true, asked := true }))

-- patrol (R126, R142, R146)

/-- The patrol pass in which a read falls: passes follow one another at the patrol period. -/
def patrolPass (s : State) : Nat := s.pwr.meridian / (s.patrolH * 3600 * 10 ^ 9)

/-- A row in which a patrol pass corrects an error, as another pass did before, is to be repaired (R142). -/
def patrolFound (s : State) (pa : Nat) : State :=
  let g := pa / 0x80000000
  let row := Config.rowOf (pa % 0x80000000 / 128)
  let k := patrolPass s
  if (chanOf s g).patrolSeen.any (fun x => x.1 == row && x.2 != k) then repairTrigger s pa
  else modChan s g (fun c => { c with patrolSeen := if c.patrolSeen.contains (row, k) then c.patrolSeen else c.patrolSeen ++ [(row, k)] })

/-- PATROL_READ (R131, R141, R142, R146): a line is read from its stack, past the LLM cache; those of slices that are HELD, SCRUBBING or RETIRED are
skipped. A corrected line's write-back changes no byte that a read would see, so one that has been written since (`_written`) is the same. -/
def execPatrolRead (pa : Nat) (errs second : List (Nat × Byte)) (_written : Bool) (s : State) : Out :=
  if !isStack pa || !(repairable s (pa / 0x80000000)) then .next s
  else
    let es := lineErrs errs 0
    let s := (beneath s (pa / 128) (fun s => eccLine s pa es (lineErrs second 0))).1
    .next (if decide (1 ≤ badBytes es) && decide (badBytes es ≤ 6) then patrolFound s pa else s)

/-- An uncorrectable word of the LLM scratchpad or of cluster memory: poisoned; a shared range's is repaired from its backing source, or lost
(R126, R391–R393). -/
def wordLost (s : State) (pa : Nat) : State :=
  let s := { s with poison := tabSet false s.poison (pa / 64) true }
  if (rangeAt s pa backed).isSome then { s with err := { s.err with repairs := tabMod 0 s.err.repairs (pa / 128 * 128) (Nat.max 1) } }
  else if (rangeAt s pa (·.shared)).isSome then
    (partsMapping s pa).foldl (fun s n => loseCtx s n sPoisoned none 0 1 false) s
  else s

/-- An uncorrectable word of a cache granule (R126): a clean line is given up, to be fetched again; a dirty one is poisoned, and written back so. Which line
lies there is open (log 61). -/
def cacheWordLost (s : State) (i word : Nat) : State :=
  let l := tabKeys (fun x _ => homeDie x == i / 128 && ownerOf s (x * 128) == some (granuleOf s i).part) s.cache
  if l = [] then s
  else
    let x := l.getD (Config.cacheWord i word % l.length) 0
    match tabGet none s.cache x with
    | some e => evictLine (if e.dirty then { s with lmeta := tabSet freshMeta s.lmeta x (lineMeta s x ||| 1#16) } else s) x
    | none => s

/-- An uncorrectable word of a collective engine's staging bank: a running invocation whose reservation holds it will end poisoned (R116, R126). Which
reservation that is, or none, is open (log 12). -/
def stagingLost (s : State) (e word : Nat) : State :=
  let l := s.parts.flatMap (fun p => tabKeys (fun _ c => c.registered && c.engine == e) p.2.colls |>.map (fun h => (p.1, h)))
  match l[Config.stagingWord e word % (l.length + 1)]? with
  | some (n, h) => modColl s n h (fun c => { c with bad := c.bad || c.running })
  | none => s

/-- SRAM_PATROL (R126, R374): `kind` is the memory kind of R374, `unit` a core, cluster, granule or engine, `word` the 64-byte word, `badBits` the
wrong bits of its worst eight bytes. A core's local and instruction memory have no patrol: their errors are found when a running core uses them (log 161). -/
def execSramPatrol (kind unit word : Nat) (badBits : Nat) (s : State) : Out :=
  if badBits = 0 || kind > 6 || (kind ≤ 1 && (coreOf s unit).mode ≠ .running) then .next s
  else
    let base := match kind with | 2 => clusterPa unit | 3 => granulePa unit | _ => 0
    let pa := if kind = 2 || kind = 3 then base + 64 * word else 64 * word
    let utype := match kind with | 0 => 1 | 1 => 1 | 2 => 2 | 3 => 5 | 4 => 8 | 5 => 8 | _ => 9
    let note (s : State) (sev code st : Nat) : State :=
      event s 1 sev code st utype unit none none [BitVec.ofNat 64 pa, BitVec.ofNat 64 (kind * 2 ^ 16), 0]
    if badBits = 1 then .next (note s 2 1 0)
    else match kind with
      | 0 => .next (coreMemFault s unit 0 (64 * word))
      -- the image is reloaded by PROGRAM_IMAGE_RELOAD
      | 1 => .next (note s 3 2 0)
      | 2 => .next (wordLost (note s 3 2 0) pa)
      | 3 => if (granuleOf s unit).cache then .next (cacheWordLost (note s 3 2 0) unit word) else .next (wordLost (note s 3 2 0) pa)
      | 4 => .next (stagingLost (note s 3 2 0) unit word)
      | 5 => .next (note s 3 2 0)
      | _ => .next (raiseAlarm (note s 3 2 0) 3)

-- stalls and counts without another effect (R134, R140)

/-- STACK_RECALIBRATE (R134): traffic waits; none is dropped. -/
def execStackRecalibrate (g : Nat) (s : State) : Out :=
  if g ≥ 384 || !(chanOf s g).trained then .next s else .next (modChan s g (fun c => { c with recals := c.recals + 1 }))

/-- STACK_REFRESH (R134). -/
def execStackRefresh (g bank : Nat) (s : State) : Out :=
  if g ≥ 384 || bank ≥ 2 ^ 32 || !(chanOf s g).trained then .next s else .next (modChan s g (fun c => { c with refreshes := c.refreshes + 1 }))

/-- INNER_ECC_READOUT (R140, R374): the counts are logged; the record's count is in byte 40 (DESIGN CHOICE, log 62). -/
def execInnerEccReadout (stack count : Nat) (s : State) : Out :=
  if stack ≥ 12 then .next s
  else .next (event s 1 0 0x0B 0 4 stack none none (memDetail 0 (Nat.min count 0xFF) 0 7 0))

-- erase (R147, R350)

/-- The virtual device that a slice leaves. -/
def leavingVd (s : State) (k : Nat) : Nat := (partOf s (sliceOf s k).owner).vd.vdid

/-- Bytes of a receive buffer hold a packet of a virtual device, from a header on; with fuel. -/
def holdsVd (vdid : Nat) : Nat → List Byte → Bool
  | 0, _ => false
  | _, [] => false
  | k + 1, b :: bs =>
    if b.toNat % 16 = 0 then holdsVd vdid k (bs.drop 15)
    else
      let w := bytesNat ((b :: bs).take 8)
      (!bitOf w 18 && bytesNat ((bs.drop 7).take 3) == vdid) || holdsVd vdid k (bs.drop (31 + 16 * bits w 17 9))

/-- Packets that a link has taken and not begun to send go back among those to be sent (R147, R317). -/
def drainWhere (s : State) (k : Nat) (mine : Packet → Bool) : State :=
  let begun (v : Nat) : Nat := if tabGet 0 (linkOf s k).cut v = 0 then 0 else 1
  let back := (linkOf s k).egress.flatMap (fun x => (x.2.drop (begun x.1)).filter mine)
  requeue (modLink s k (fun l => { l with egress := tabOf [] (tabMapV (fun v ps => ps.take (begun v) ++ (ps.drop (begun v)).filter (fun p => !mine p)) l.egress) })) back
/-- Those of one virtual device. -/
def drainEgress (s : State) (k vdid : Nat) : State := drainWhere s k (fun p => !p.maddr && p.vdid == vdid)

/-- Nothing of a virtual device is left in a link's egress and receive buffers. -/
def linkDrained (s : State) (k vdid : Nat) : Bool :=
  let l := linkOf s k
  l.egress.all (fun x => x.2.all (fun p => p.maddr || p.vdid != vdid)) && l.rxbuf.all (fun x => !holdsVd vdid (x.2.length / 16 + 1) x.2)

/-- Everything a slice stores written to the scrub pattern, its counters cleared (R147, R371). -/
def eraseSlice (s : State) (k : Nat) : State :=
  if isCompute k then
    let s := clearSpan s (clusterPa k) 0x800000
    let s := (List.range 16).foldl (fun s i => modCore s (16 * k + i) (fun c => { nextId := c.nextId })) s
    modCluster s k (fun c => { c with conflict := [], hits := [], counters := [], coreMap := [] })
  else if isMemory k then
    let s := clearSpan (clearSpan s (chanPa (k - 64)) reservationAt) (spillBase + chanPa (k - 64)) reservationAt
    modChan s (k - 64) (fun c => { c with lines := [], redirect := [], reqs := [], tokens := [], uncor := [] })
  else drainEgress s (k - 448) (leavingVd s k)

/-- What its partition left on a slice has gone, so that the slice can be erased (R66, R147): no task is bound to a core of it; a link slice's share of the
link's buffers has drained. -/
def eraseReady (s : State) (k : Nat) : Bool :=
  if isCompute k then sliceIdle s k
  else isMemory k || linkDrained (eraseSlice s k) (k - 448) (leavingVd s k)

/-- SLICE_ERASE (R21, R147): a slice that its partition has left enters SCRUBBING; one in SCRUBBING is erased. -/
def execSliceErase (slice : Nat) (s : State) : Out :=
  match (sliceOf s slice).state with
  | .releasing => .next (if eraseReady s slice then eraseSlice (moveSlice s slice .scrubbing id) slice else if isLink slice then eraseSlice s slice else s)
  | .scrubbing => .next (eraseSlice s slice)
  | _ => .next s

/-- A test whose slice has reached FREE completes with RESULT 0 (R148, R394). -/
def testPassed (s : State) (k : Nat) : State :=
  match (queueOf s 64 5).cmds.find? (fun c => (c.opc == 0x62 || c.opc == 0x63) && c.phase == .started && c.moved == 4 && testSlice c == k) with
  | some c => finish s 64 5 c.seq sOk 0
  | none => s

/-- SLICE_ERASE_END (R22, R147, R263, R350): the slice is FREE; a compute slice is power-gated there, which R23 allows (DESIGN CHOICE, log 63).
A released virtual device that waits for it goes on. -/
def execSliceEraseEnd (slice : Nat) (s : State) : Out :=
  let x := sliceOf s slice
  if x.state ≠ .scrubbing then .next s
  else
    let s := eraseSlice s slice
    let s := moveSlice s slice .free (fun y => { y with owner := if y.ret then y.owner else 0, gated := isCompute slice, testing := false, asked := false })
    let s := freeLegend s slice
    let s := if isCompute slice then modCluster s slice (fun c => { c with synced := false }) else s
    let s := testPassed s slice
    .next (retryReserves (releaseStep (if (partOf s x.owner).vd.released then releaseSettle s x.owner else s)))

-- self-test and margining (R148, R180, R264, R394)

/-- What refuses to take a slice from its partition: it would break R18 while the slice is away (R264, R148). -/
def takeRefused (s : State) (n k : Nat) : Bool :=
  let same (p : Nat → Bool) : Bool := p k && (assignedOf s n p).length ≤ 1
  same isCompute || same isMemory || (same isLink && decide ((partOf s n).vd.members.length > 1))

/-- A command's stage in a test: 1 its slice is being cleared, 2 the edition that takes it is asked for, 3 in test, 4 on its way to FREE, 5 it came behind
an assignment of the FREE slice and waits till the slice is FREE again (R22). -/
def testStage (s : State) (seq st : Nat) : State := modCmd s 64 5 seq (fun c => { c with moved := st })

/-- The slice is HELD for the command's test; traffic leaves a link (R317, R394). -/
def testBegins (s : State) (seq opc k : Nat) : State :=
  let s := testStage (markSlice s k (fun x => { x with testing := true })) seq 3
  let s := if isLink k then drainWhere s (k - 448) (fun _ => true) else s
  if opc = 0x63 then modChan s (k - 64) (fun c => { c with margining := true }) else s

/-- The edition that takes the slice; where this module is the arbiter it is HELD at once. -/
def testTake (s : State) (seq opc n k : Nat) : State :=
  let s := commitChange s n (.seq (.only s.glb.moduleId (.take k)) (ownCounts (markSlice s k (fun x => { x with state := .held })) n))
  if (sliceOf s k).state = .held then testBegins s seq opc k else testStage s seq 2

/-- A slice is cleared for a test, then taken (R264, R394): tasks leave a compute slice by pre-emption, all that lies on a memory slice by evacuation. -/
def testClear (s : State) (seq opc n k : Nat) : State :=
  if isCompute k then
    if sliceIdle s k then
      testTake (modVd s n (fun v => { v with leaving := v.leaving.filter (· != k) })) seq opc n k
    else
      let s := modVd s n (fun v => { v with leaving := if v.leaving.contains k then v.leaving else v.leaving ++ [k] })
      testStage (preemptSlice s k) seq 1
  else if isMemory k then
    let stay (s : State) : State := modVd s n (fun v => { v with leaving := v.leaving.filter (· != k) })
    match evacuate (modVd s n (fun v => { v with leaving := v.leaving.filter (· != k) ++ [k] })) n (k - 64) (opc != 0x63) with
    | .refused s => finish (stay s) 64 5 seq sRefused 0
    | .wait s => testStage s seq 1
    | .done s => testTake (stay s) seq opc n k
  else testTake s seq opc n k

/-- SELFTEST and MARGIN up to the start of the test. -/
def testRun (s : State) (seq : Nat) (c : Cmd) : State :=
  let k := testSlice c
  let x := sliceOf s k
  if c.moved = 3 || c.moved = 4 || (c.moved = 5 && x.state ≠ .free) then s
  else if c.moved = 2 then (if x.state = .held then testBegins s seq c.opc k else s)
  else if c.opc = 0x63 && !(chanOf s (k - 64)).triggers.isEmpty then s
  else match x.state with
    | .free => if x.pending then testStage s seq 5 else testBegins (moveSlice s k .held (fun x => { x with asked := true })) seq c.opc k
    | .assigned => if c.moved = 0 && takeRefused s x.owner k then finish s 64 5 seq sRefused 0 else testClear s seq c.opc x.owner k
    | _ => finish s 64 5 seq sRefused 0

/-- SELFTEST (R394), on the PF's Q5. -/
def execSelftest (f seq : Nat) (s : State) : Out :=
  if f ≠ 64 then .next s
  else match startedCmd s f 5 seq 0x62 with
    | none => .next s
    | some c => .next (testRun s seq c)

/-- MARGIN (R148, R149): a repair pending on the channel comes first. -/
def execMargin (f seq : Nat) (s : State) : Out :=
  if f ≠ 64 then .next s
  else match startedCmd s f 5 seq 0x63 with
    | none => .next s
    | some c => .next (testRun s seq c)

/-- The command whose slice is in test. -/
def inTest (s : State) (opc : Nat) : Option Cmd :=
  (queueOf s 64 5).cmds.find? (fun c => c.opc == opc && c.phase == .started && c.moved == 3)

/-- A slice that fails its test is RETIRED, which flash records (R145, R394). The class of its record is the model's (log 64). -/
def retireSlice (s : State) (k result : Nat) : State :=
  let n := (sliceOf s k).owner
  let s := moveSlice s k .retired (fun x => { x with ret := false, owner := 0, testing := false, asked := false })
  let s := if isMemory k then modChan s (k - 64) (fun c => { c with trained := false }) else s
  let s := { s with nv := { s.nv with retiredSlices := if s.nv.retiredSlices.contains k then s.nv.retiredSlices else s.nv.retiredSlices ++ [k] } }
  let n := if (partOf s n).vd.used then some n else none
  retryReserves (if isCompute k then event s 1 3 2 0 2 k n none [0, BitVec.ofNat 64 (result % 2 ^ 8), 0]
    else if isMemory k then event s 1 3 7 0 3 (k - 64) n none (memDetail (chanPa (k - 64)) 0 0 7 0)
    else event s 5 1 1 0 6 (k - 448) n none [BitVec.ofNat 64 (k - 448), 0, 0])

/-- Row repairs that a memory slice's self-test makes (R149, R394). -/
def testRepairs (s : State) (k : Nat) : State :=
  if isMemory k then (chanOf s (k - 64)).triggers.foldl (spareRow (k - 64)) s else s

/-- SELFTEST_DONE (R394): of the command's slice, or of a slice that firmware holds for a test. -/
def execSelftestDone (result : Nat) (s : State) : Out :=
  let cmd := inTest s 0x62
  let target : Option Nat := match cmd with
    | some c => some (testSlice c)
    | none => (tabKeys (fun k (x : Slice) => x.state == .held && x.testing && !(isMemory k && (chanOf s (k - 64)).margining)) s.slices).head?
  match target with
  | none => .next s
  | some k =>
    if (sliceOf s k).state ≠ .held then .next s
    else if result = 0 then
      let s := moveSlice (testRepairs s k) k .scrubbing (fun x => { x with testing := false })
      let s := if isMemory k then modChan s (k - 64) (fun c => { c with trained := true }) else s
      .next (match cmd with | some c => testStage s c.seq 4 | none => s)
    else
      let s := retireSlice s k result
      .next (match cmd with | some c => finish s 64 5 c.seq sOk (result % 2 ^ 8) | none => s)

/-- The criteria of R148 on every one of the 72 pins: an eye of at least 0.30 UI and 35 mV. -/
def eyesMeet (eyes : List (Nat × Nat)) : Bool := eyes.all (fun e => decide (30 ≤ e.1) && decide (35 ≤ e.2))

/-- MARGIN_SWEEP_END (R148): the sweep has measured all 72 pins, each eye's width in hundredths of a UI and height in mV. A channel that meets both
criteria is retrained and goes to SCRUBBING; one that misses either is set MARGIN_FAIL and RETIRED. RESULT on failure is not 0, and otherwise open (log 65). -/
def execMarginSweepEnd (g : Nat) (eyes : List (Nat × Nat)) (s : State) : Out :=
  let k := 64 + g
  let pass := eyesMeet eyes
  if g ≥ 384 || eyes.length ≠ 72 || !(chanOf s g).margining || (sliceOf s k).state ≠ .held then .next s
  else
    let cmd := (inTest s 0x63).filter (fun c => testSlice c == k)
    let s := modChan s g (fun c => { c with margining := false, marginFail := !pass, trained := c.trained || pass })
    if pass then
      let s := moveSlice s k .scrubbing (fun x => { x with testing := false })
      .next (match cmd with | some c => testStage s c.seq 4 | none => s)
    else
      let s := retireSlice s k 0
      let (d, s) := draw s
      .next (match cmd with | some c => finish s 64 5 c.seq sOk (1 + (Config.freeByte d 0).toNat % 255) | none => s)

-- line slots (R410–R412)

/-- A token in the bucket's parts. A class fills by g / 768 of a token in a slot of 4/3 ns when its guarantee is g units of 0.125 GB/s; the
parts below 2^−20 of a tenth are not kept (DESIGN CHOICE, log 66). -/
def tokenUnit : Nat := 7680 * 2 ^ 20

/-- What a class's bucket gains in one slot: the owner's guarantee, scaled where the channel's share falls short, and the firmware reserve of
3.9 GB/s for class 0 (R274, R410). -/
def slotFill (s : State) (g cls : Nat) : Nat :=
  let n := ownerOf s (chanPa g)
  let guar := match n with | some n => (partOf s n).vd.memGuar | none => []
  let a := chanShare (chanOf s g).capacity
  let own := guar.getD cls 0
  let scaled := if guar.sum ≤ a then 10 * 2 ^ 20 * own else 10 * 2 ^ 20 * own * a / guar.sum
  scaled + (if cls = 0 then 312 * 2 ^ 20 else 0)

/-- The first class after `last`, round robin, for which a test holds (R410). -/
def roundRobin (last : Nat) (p : Nat → Bool) : Option Nat := ((List.range 8).map (fun i => (last + 1 + i) % 8)).find? p

/-- One line slot taken from the first request that satisfies a test. -/
def serveFirst (p : ChanReq → Bool) : List ChanReq → List ChanReq
  | [] => []
  | r :: rs => if p r then (if r.lines ≤ 1 then rs else { r with lines := r.lines - 1 } :: rs) else r :: serveFirst p rs

/-- The buckets filled for one slot. -/
def fillBuckets (s : State) (g : Nat) : State :=
  modChan s g (fun c => { c with tokens := (List.range 8).foldl (fun t j => tabMod 0 t j (fun v => Nat.min (32 * tokenUnit) (v + slotFill s g j))) c.tokens })

/-- One line issued for a class. -/
def issueLine (c : Chan) (cls : Nat) (p : ChanReq → Bool) : Chan :=
  { c with reqs := serveFirst p c.reqs, lines := tabMod 0 c.lines cls (· + 1) }

/-- The choice of a slot (R410): urgent, then a class with a token, then any. -/
def issueSlot (c : Chan) : Chan :=
  let others := c.reqs.any (fun r => r.urgent.isNone)
  match c.reqs.find? (fun r => r.urgent.isSome) with
  | some r =>
    if !(c.lastUrgent && others) then { issueLine c r.cls (fun x => x.urgent.isSome) with lastUrgent := true }
    else issueShared c
  | none => issueShared c
where
  issueShared (c : Chan) : Chan :=
    let c : Chan := { c with lastUrgent := false }
    let waits (j : Nat) : Bool := c.reqs.any (fun r => r.urgent.isNone && r.cls == j)
    match roundRobin c.lastTok (fun j => waits j && decide (tokenUnit ≤ tabGet 0 c.tokens j)) with
    | some j => { issueLine c j (fun r => r.urgent.isNone && r.cls == j) with lastTok := j, tokens := tabMod 0 c.tokens j (· - tokenUnit) }
    | none =>
      match roundRobin c.lastAny waits with
      | some j => { issueLine c j (fun r => r.urgent.isNone && r.cls == j) with lastAny := j }
      | none => c

/-- CHANNEL_SLOT_ISSUE (R410–R412): one slot of two controller cycles; at 95 °C every other slot issues nothing. -/
def execChannelSlotIssue (g : Nat) (s : State) : Out :=
  if g ≥ 384 || !(chanOf s g).trained then .next s
  else
    let s := fillBuckets s g
    let c := chanOf s g
    if c.halfRate && !c.slot then .next (modChan s g (fun c => { c with slot := true }))
    else
      let d := issueSlot c
      let s := modChan s g (fun _ => { d with slot := false })
      -- STACK_LINES of the partition that holds the slice (R416)
      .next (match ownerOf s (chanPa g) with | some n => if d.reqs = c.reqs then s else countPart s n 5 1 | none => s)

/-- URGENT_MARK_EXPIRY (R411): a request marked over link `k` has waited 10 µs. -/
def execUrgentMarkExpiry (g k : Nat) (s : State) : Out :=
  if g ≥ 384 then .next s
  else .next (modChan s g (fun c => { c with reqs := c.reqs.map (fun r => if r.urgent = some k then { r with urgent := none } else r) }))

end Sys2Proof.Machine
end

