-- ==== Sys2Proof/Machine/Ports.lean ====
section
/-! DEFINITION. The host ports: link state, resets, Function Level Reset, mailboxes, flushes of the write log, and switches of dual-homed functions (R322–R333, R345). -/

namespace Sys2Proof.Machine

-- write logs (R329)

/-- The last `k` writes after the first `k` are kept: those a flush read had in front of it are dropped; control writes that waited enter
while there is room, with fuel. -/
def logAdmit : Nat → State → Nat → State
  | 0, s, _ => s
  | k + 1, s, i =>
    let p := portOf s i
    match p.waiting with
    | [] => s
    | w :: ws =>
      if logBytes p.log + w.data.length > logSize then s
      else
        let s := { s with hostOut := s.hostOut ++ [w] }
        logAdmit k (modPort s i (fun p => { p with log := p.log ++ [w], waiting := ws })) i

/-- FLUSH_READ (R329): a zero-length read behind every control write posted so far. -/
def execFlushRead (port : Nat) (s : State) : Out :=
  let p := portOf s port
  if port > 1 || p.link ≠ 2 || p.flush.isSome then .next s
  else .next (modPort s port (fun p => { p with flush := some p.log.length }))

/-- FLUSH_READ_COMPLETE (R329): the writes posted before the read leave the log; waiting ones follow. -/
def execFlushReadComplete (port : Nat) (s : State) : Out :=
  let p := portOf s port
  match p.flush with
  | none => .next s
  | some k =>
    let s := modPort s port (fun p => { p with log := p.log.drop k, flush := none })
    .next (logAdmit p.waiting.length s port)

-- switches (R328, R330)

/-- A function's control writes taken out of a port's log, and those that waited. -/
def takeLog (s : State) (i f : Nat) : State × List HostWrite × List HostWrite :=
  let p := portOf s i
  let mine (l : List HostWrite) : List HostWrite := l.filter (fun w => w.func == f)
  let rest (l : List HostWrite) : List HostWrite := l.filter (fun w => w.func != f)
  (modPort s i (fun p => { p with log := rest p.log, waiting := rest p.waiting, flush := p.flush.map (fun k => (rest (p.log.take k)).length) }),
   mine p.log, mine p.waiting)

/-- Translations of a partition's function leave a port, and its page request groups are sent again on the other (R164, R166, R330 step 3). -/
def moveTranslations (s : State) (n old new : Nat) : State :=
  let s := atcDrop s (fun e => e.port == old && e.fn == n + 1)
  let overs (x : FaultEntry) : FaultEntry := if x.port = old && x.fn = n + 1 then { x with port := new, sent := false } else x
  settleFaults { s with sur := { s.sur with faultQ := s.sur.faultQ.map overs, waiting := s.sur.waiting.map overs } }

/-- PIDX of every ring written again, and each queue's MSI-X entry fired once (R214, R330 steps 4 and 5). -/
def announce (s : State) (n : Nat) : State :=
  let s := (tabKeys (fun _ r => r.created) (partOf s n).str.rings).foldl (fun s r => ringIndex (modRing s n r (fun x => { x with again := true })) n r) s
  (tabKeys (fun _ q => q.created) (partOf s n).queues).foldl (fun s q => raiseMsix s n (queueOf s n q).vector) s

/-- A write of the old port's log posted on the port that its function uses now, with the address as its range gives it (R163, R330). -/
def repost (s : State) (w : HostWrite) : State :=
  hostPost s w.func { hostWrite s w.func (w.raw.getD w.addr) w.data with pasid := w.pasid }

/-- A switch of a VF to its other port (R330); after a failure the old port's log is replayed on the new one. Copies are moved in whole
segments here, so none is in flight between two commands. -/
def switchVf (s : State) (n : Nat) (failed : Bool) : State :=
  let old := b2n (partOf s n).vf.active
  let new := 1 - old
  let s := moveTranslations s n old new
  let (s, logged, waiting) := takeLog s old n
  let s := modVf s n (fun v => { v with active := !v.active, noPort := false, switchReq := false, failedOver := v.failedOver || failed })
  let s := ((if failed then logged else []) ++ waiting).foldl repost s
  let s := announce s n
  if failed then
    let s := modPort s old (fun p => { p with failovers := satAdd 0xFFFF p.failovers 1 })
    event s 6 3 2 0 7 new (some n) none [BitVec.ofNat 64 (new + n * 2 ^ 8), 0, 0]
  else s

/-- A switch was asked for and cannot be made (R328). -/
def switchRefused (s : State) (n : Nat) : State := modVf s n (fun v => { v with switchReq := false, refused := true })

/-- SWITCH (R328, R330, R332): to the other port when it is usable. -/
def execSwitch (n : Nat) (s : State) : Out :=
  let v := (partOf s n).vf
  if n ≥ 64 || !(partOf s n).vd.used || !v.switchReq then .next s
  else if portUsable s n (1 - b2n v.active) then .next (switchVf s n false)
  else .next (switchRefused s n)

/-- An active VF loses its port (R328, R331): it is switched, or its queues stop until a port is usable. -/
def portLost (i : Nat) (s : State) (n : Nat) : State :=
  let v := (partOf s n).vf
  if b2n v.active ≠ i || !(v.exposedA || v.exposedB) then s
  else if portUsable s n (1 - i) then switchVf s n true
  else modVf s n (fun v => { v with noPort := true })

/-- The link of a port is gone: its record, and every VF active on it (R328, R374). -/
def portDown (s : State) (i link : Nat) (perst : Bool) : State :=
  let s := modPort s i (fun p => { p with link, gen := 0, width := 0, flit := false, ideLink := false, perst, enabled := false, flush := none, ats := [] })
  let s := atcDrop s (fun e => e.port == i)
  let s := event s 6 2 1 0 7 i none none [BitVec.ofNat 64 i, 0, 0]
  (livePartsOf s).foldl (portLost i) s

/-- PORT_FAILURE (R328): Data Link Layer Link Active is lost, or a flush read has timed out. -/
def execPortFailure (port : Nat) (s : State) : Out :=
  if port > 1 || (portOf s port).link ≠ 2 then .next s else .next (portDown s port 0 (portOf s port).perst)

/-- A VF without a usable port (R331): its active port failed, or neither can be used. -/
def withoutPort (s : State) (n : Nat) : Bool := (partOf s n).vf.noPort || !(portUsable s n 0 || portUsable s n 1)

/-- NO_PORT_TIMEOUT (R331): 10 s without a usable port; the context is lost. -/
def execNoPortTimeout (n : Nat) (s : State) : Out :=
  if n ≥ 64 || !withoutPort s n then .next s else .next (loseCtx s n sTimeout none 0 1 false)

/-- A VF without a usable port gets one (R331). The log of the port that it was on is replayed there. -/
def portBack (i : Nat) (s : State) (n : Nat) : State :=
  let v := (partOf s n).vf
  if !(v.noPort || !portUsable s n (b2n v.active)) || !portUsable s n i then s
  else if b2n v.active ≠ i then switchVf s n v.noPort
  else
    let (s, logged, waiting) := takeLog s i n
    let s := modVf s n (fun v => { v with noPort := false })
    announce ((logged ++ waiting).foldl repost s) n

/-- Functions with ATS as the host's configuration has them, by R185's number. -/
def atsTable (l : List (Nat × Nat)) : Tab Nat := (l.filter (fun x => decide (x.1 ≤ 64))).foldl (fun t x => tabSet 0 t x.1 (x.2 + 1)) []

/-- PORT_LINK_UP (R163, R328, R331, R333): the link trains, PERST is released, and the host sets the functions' enables, and ATS on some of them with the
page request groups that it allows each (DESIGN CHOICE, log 69). -/
def execPortLinkUp (port gen width : Nat) (ats : List (Nat × Nat)) (s : State) : Out :=
  if port > 1 || gen < 4 || gen > 7 || !(width == 16 || width == 8 || width == 4) then .next s
  else
    let s := modPort s port (fun p => { p with link := 2, gen, width, flit := decide (gen ≥ 6), perst := false, enabled := true, ats := atsTable ats })
    let s := (livePartsOf s).foldl (fun s n => modVf s n (fun v => if port = 0 then { v with offA := false } else { v with offB := false })) s
    .next ((livePartsOf s).foldl (portBack port) s)

-- resets of a port and of a function (R322, R323)

/-- Every queue of a function destroyed as R246 has it. -/
def destroyQueues (s : State) (f : Nat) : State :=
  cqSettle ((tabKeys (fun _ x => x.created && !x.destroying) (partOf s f).queues).foldl (fun s q => queueStart s f q) (countsFresh s))

/-- ATS of one function on a port is off again after its reset, and its translations go. -/
def resetAts (s : State) (i fn : Nat) : State :=
  atcDrop (modPort s i (fun p => { p with ats := tabDel p.ats fn })) (fun e => e.port == i && e.fn == fn)

/-- The configuration of one VF on one port reset: its enables, its mailbox's pending request (R323, R345). -/
def resetVfConfig (s : State) (i n : Nat) : State :=
  let s := resetAts s i (n + 1)
  let s := modVf s n (fun v => if i = 0 then { v with offA := true } else { v with offB := true })
  { s with glb := { s.glb with mbx := tabMod {} s.glb.mbx (64 * i + n) (fun m => { m with send := false, reply := false }) } }

/-- Function Level Reset of a VF on a port (R323, R336, R345); `failed` where the port has gone with it. -/
def flrVf (i : Nat) (failed : Bool) (s : State) (n : Nat) : State :=
  let v := (partOf s n).vf
  let on := (partOf s n).vd.used && (if i = 0 then v.exposedA else v.exposedB)
  if !on then s
  else
    let s := tdiError s n
    let s := event s 6 0 3 0 7 i (some n) none [BitVec.ofNat 64 (i + (n + 1) * 2 ^ 8), 0, 0]
    let s :=
      if b2n v.active ≠ i then s
      else if portUsable s n (1 - i) then switchVf s n failed
      else destroyQueues s n
    resetVfConfig s i n

/-- FLR of the PF (R323): its own queue set goes. The PF's queues are fetched through port A (log 70). -/
def flrPf (s : State) (i : Nat) : State :=
  let s := event (resetAts s i 0) 6 0 3 0 7 i none none [BitVec.ofNat 64 i, 0, 0]
  if i = 0 then destroyQueues s 64 else s

/-- FLR (R323): of function `fn` on a port, 0 the PF and n + 1 partition n's VF. -/
def execFlr (port fn : Nat) (s : State) : Out :=
  if port > 1 || fn > 64 then .next s
  else if fn = 0 then .next (flrPf s port)
  else .next (flrVf port false s (fn - 1))

/-- A reset of a port (R322, R328): a failure for the VFs active there, and FLR of each of its functions. -/
def portReset (s : State) (i link : Nat) (perst : Bool) : State :=
  let s := portDown s i link perst
  let s := (livePartsOf s).foldl (flrVf i true) s
  flrPf s i

/-- PERST (R322): the port's fundamental reset is asserted. -/
def execPerst (port : Nat) (s : State) : Out := if port > 1 then .next s else .next (portReset s port 0 true)

/-- HOT_RESET (R322): the link stays and trains again. -/
def execHotReset (port : Nat) (s : State) : Out :=
  if port > 1 || (portOf s port).link = 0 then .next s else .next (portReset s port 1 (portOf s port).perst)

-- mailboxes (R325, R326)

/-- VF_MBX_SEND (R325): the request is posted to the PF (DEDUCED, log 112). -/
def execVfMbxSend (port n : Nat) (len : Nat) (s : State) : Out :=
  let v := (partOf s n).vf
  let on := (partOf s n).vd.used && (if port = 0 then v.exposedA else v.exposedB)
  let m := tabGet {} s.glb.mbx (64 * port + n)
  if port > 1 || n ≥ 64 || !on || len > 256 || m.send then .next s
  else
    let s := { s with glb := { s.glb with
      mbx := tabSet {} s.glb.mbx (64 * port + n) { m with send := true, len }
      pend := tabMod 0 s.glb.pend port (· ||| BitVec.ofNat 64 (2 ^ n)) } }
    .next (raiseMsix s 64 2047)

/-- GLB_MBX_DONE (R326): the PF's reply ends SEND and sets REPLY; the VF's MSI-X entry 127 is raised on that port. -/
def execGlbMbxDone (port n : Nat) (s : State) : Out :=
  let m := tabGet {} s.glb.mbx (64 * port + n)
  if port > 1 || n ≥ 64 || !m.send then .next s
  else
    let s := { s with glb := { s.glb with mbx := tabSet {} s.glb.mbx (64 * port + n) { m with send := false, reply := true } } }
    .next { s with msix := s.msix ++ [(port, n, 127)] }

end Sys2Proof.Machine
end

