-- ==== Sys2Proof/Machine/Tdisp.lean ====
section
/-! DEFINITION. Assignment of VFs to confidential virtual machines, and the peer window (R334–R336, R343, R347). -/

namespace Sys2Proof.Machine

/-- Codes under which the module's answers stand in `answers` (the model's own numbers, log 71): SPDM requests from 1, TDISP messages from 32, that of a lock. -/
abbrev ansStart : Nat := 33
abbrev ansStop : Nat := 34
abbrev ansReport : Nat := 35

/-- A TDISP message reaches Cartouche inside an SPDM session of a host port (R334) (DEDUCED, log 115). -/
def tdispOpen (s : State) : Bool := (List.range 8).any (fun i => (tabGet {} s.sec.sessions i).state == 5)

/-- The TDI is there: an exposed VF of a live partition, addressed through an open session. -/
def tdiThere (s : State) (n : Nat) : Bool :=
  decide (n < 64) && (partOf s n).vd.used && ((partOf s n).vf.exposedA || (partOf s n).vf.exposedB) && tdispOpen s

/-- LOCK_INTERFACE (R335, R347, R367): the TDI is CONFIG_LOCKED and its virtual device secure, on every member, for good; a lock is
answered when every member has set its entries. In quarantine no TDI locks. -/
def execLockInterface (n : Nat) (s : State) : Out :=
  if !tdiThere s n then .next s
  else if (partOf s n).vf.tdi ≠ .unlocked || s.sec.quarantine then .next (answerMgmt s ansLock false [BitVec.ofNat 64 n])
  else if (partOf s n).vd.locking.isSome then .next s
  else
    let others := if (partOf s n).vd.secure then [] else otherMembers s n
    let s := if (partOf s n).vd.secure then s else lockHere s n
    let s := others.foldl (fun s m => sendAtlas s m atlLock (partOf s n).vd.vdid []) s
    .next (lockSettle (modVd s n (fun v => { v with locking := some others })) n)

/-- START_INTERFACE (R335): from CONFIG_LOCKED to RUN. -/
def execStartInterface (n : Nat) (s : State) : Out :=
  if !tdiThere s n then .next s
  else if (partOf s n).vf.tdi ≠ .locked then .next (answerMgmt s ansStart false [BitVec.ofNat 64 n])
  else .next (answerMgmt (modVf s n (fun v => { v with tdi := .run })) ansStart true [BitVec.ofNat 64 n])

/-- STOP_INTERFACE (R335): to CONFIG_UNLOCKED; from ERROR once the queues are destroyed, until when the message is served further. -/
def execStopInterface (n : Nat) (s : State) : Out :=
  if !tdiThere s n then .next s
  else
    let s := if (partOf s n).vf.tdi = .error then destroyQueues s n else s
    if (partOf s n).vf.tdi = .error && !queuesGone (partOf s n) then .next s
    else .next (answerMgmt (modVf (modVd s n (fun v => { v with locking := none })) n (fun v => { v with tdi := .unlocked })) ansStop true [BitVec.ofNat 64 n])

/-- GET_DEVICE_INTERFACE_REPORT (R334): TEE ranges with bit [63] set, the mailbox without, then the VDID, the slice counts, the lifecycle state and
the firmware measurements (DEDUCED, log 117). -/
def execGetDeviceInterfaceReport (n : Nat) (s : State) : Out :=
  if !tdiThere s n then .next s
  else
    let tee (o : Nat) : Nat := 2 ^ 63 + o
    let p := partOf s n
    let ranges := [tee 0, tee 0x10000, 0x20000]
    let facts := [p.vd.vdid, (computeSlices s n).length, (memSlices s n).length, (assignedOf s n isLink).length, s.nv.lifecycle]
    let meas := (List.range 5).map (fun i => Config.measurement (i + 1) s.sec.svnRunning)
    .next (answerMgmt s ansReport true ((BitVec.ofNat 64 n) :: (ranges ++ facts).map (BitVec.ofNat 64) ++ meas))

-- the peer window (R343)

/-- Entries that this module has submitted to a store. -/
def submitted (s : State) : List JournalItem :=
  s.parts.flatMap (fun x => if x.2.vd.store = 0 then [] else (x.2.journal.home ++ x.2.journal.waiting.map (·.item)).filter (·.durable))

/-- Lines whose repair from pooled storage is under way: each has a store Read outstanding. -/
def storeReads (s : State) : List Nat :=
  (tabKeys (fun _ k => k != 0) s.err.repairs).filter (fun pa => (rangeAt s pa (fun r => backed r && r.backing == 2)).isSome)

/-- PEER_WINDOW_ACCESS (R343): a read inside a submitted entry returns sealed bytes, which are free; a write into the buffer of an outstanding store
Read is taken up by LINE_REPAIR; any other access is aborted. -/
def execPeerWindowAccess (off : Nat) (write : Bool) (_data : List Byte) (s : State) : Out :=
  let inside (a k : Nat) : Bool := decide (a ≤ off) && decide (off < a + k)
  if write then
    (if (storeReads s).any (fun pa => inside (Config.storeBuffer pa) 4096) then .next s
     else .next { s with reads := s.reads ++ [.completerAbort] })
  else if (submitted s).any (fun it => inside (Config.journalPlace it.vdid it.jseq) (itemSize it)) then
    let (d, s) := draw s
    .next { s with reads := s.reads ++ [.value 8 (Config.freeWord d)] }
  else .next { s with reads := s.reads ++ [.completerAbort] }

end Sys2Proof.Machine
end

