-- ==== Sys2Proof/Machine/Migrate.lean ====
section
/-! DEFINITION. Freezing, saving, restoring and moving the partition of a single-module virtual device (R337–R341, R345, R363, R365). -/

namespace Sys2Proof.Machine

/-- The operation of GLB_MIG_CTL that the row stands for is the one that GO has started. -/
def migStarted (s : State) (op n : Nat) : Bool := s.glb.migGo && s.glb.migOp == op && s.glb.migPart == n

/-- GO cleared with a status (R337). -/
def migDone (s : State) (status : Nat) : State := { s with glb := { s.glb with migGo := false, migBusy := false, migStatus := status } }

/-- A partition that the operations of R338 serve: that of a single-module virtual device. -/
def movable (s : State) (n : Nat) : Bool := (partOf s n).vd.used && (partOf s n).vd.members.length == 1

-- FREEZE

/-- Launches of a partition dropped with their tasks, save records and areas. -/
def dropLaunches (s : State) (n : Nat) (ls : List Nat) : State :=
  let s := { s with cores := tabMapV (fun _ k => if k.mode != .idle && k.part == n && ls.contains k.launch then freeCore k else k) s.cores }
  modPart s n (fun p => { p with
    launches := p.launches.filter (fun x => !ls.contains x.1)
    saves := p.saves.filter (fun r => !ls.contains r.launch)
    carve := { p.carve with extra := p.carve.extra - ((p.launches.filter (fun x => ls.contains x.1)).map (fun x => spillPages x.2)).sum } })

/-- A stream as it was before a step that is abandoned selected it; a PAUSE or CANCEL that waited for the verdict acts now. KV pages that the
selection took stay with the stream (DESIGN CHOICE, log 72). -/
def unselect (n : Nat) (s : State) (e : StepEntry) : State :=
  let x := streamOf s n e.stream
  if x.state ≠ .scheduled then s
  else
    let s := ringSettle s n x.ring e.recs (b2n x.cancelling)
    let s := modStream s n e.stream (fun y => { y with state := waitsAs y, lastStep := e.before })
    if x.cancelling then cancelStream s n e.stream true
    else if x.pausing then
      let s := modStream s n e.stream (fun y => { y with state := .paused, pausing := false })
      journalise s n 65 0 false (plainItem jPause e.stream x.nextSeq x.reqTag)
    else s

/-- A step whose verdict has not been sent is abandoned (R338). -/
def abandonStep (n : Nat) (s : State) (k : Nat) : State :=
  match stepOf s n k with
  | none => s
  | some x =>
    let who := 2 ^ 32 + k
    let s := dropLaunches s n (tabKeys (fun _ l => l.live && l.seq == some who) (partOf s n).launches)
    let stop (_ : Nat) (y : Coll) : Coll :=
      if y.cmd.any (fun c => c.1 == who && c.2.isSome) then { y with running := false, triggered := [], cmd := none, epoch := (y.epoch + 1) % 2 ^ 32 } else y
    let s := modPart s n (fun p => { p with colls := tabMapV stop p.colls })
    let s := releaseArea s n x
    let s := modStr s n (fun t => { t with steps := t.steps.filter (fun y => y.1 != k) })
    x.entries.foldl (unselect n) s

/-- What a FREEZE waits for (R338, R345): an edition change, a rotation in its step 1 or 2, a destruction in progress. -/
def freezeWaits (s : State) (n : Nat) : Bool :=
  let p := partOf s n
  p.vd.preparing.isSome || !p.vd.queued.isEmpty || p.keys.rotating.isSome || (s.cq.go && s.cq.func == n && (p.queues.any (fun x => x.2.destroying)))

/-- FREEZE begins: unsent steps are abandoned, the context is FROZEN, its cores are pre-empted. -/
def freezeBegin (s : State) (n : Nat) : State :=
  let s := (tabKeys (fun _ x => !x.sent) (partOf s n).str.steps).foldl (abandonStep n) s
  let s := modCtx s n (fun c => { c with state := .frozen })
  let s := (computeSlices s n).foldl preemptSlice s
  { s with glb := { s.glb with migBusy := true } }

/-- Nothing of a FROZEN partition is in motion any more: no core runs, no step waits for its verdict's acknowledgements. -/
def freezeSettled (s : State) (n : Nat) : Bool := (computeSlices s n).all (sliceIdle s) && (partOf s n).str.steps.isEmpty

/-- FREEZE (R336, R338, R341, R345): of an ACTIVE context; it is served until nothing runs any more. A TDI in CONFIG_LOCKED or RUN moves to ERROR, where its
context is lost, and the FREEZE is then refused (DEDUCED, log 171). -/
def execFreeze (n : Nat) (s : State) : Out :=
  if !migStarted s 1 n then .next s
  else if s.glb.migBusy then .next (if freezeSettled s n then migDone s sOk else s)
  else if freezeWaits s n then .next s
  else
    let s := tdiError s n
    if !movable s n || (partOf s n).ctx.state ≠ .active then .next (migDone s sRefused)
    else
      let s := freezeBegin s n
      .next (if freezeSettled s n then migDone s sOk else s)

-- SAVE (R338, R340, R365)

/-- The place of a physical address in a partition's placed memory: target type, place in its list, offset. What a redirected page holds counts
under the page's own address (R179). -/
def placeOf (s : State) (chans granules : List Nat) (pa : Nat) : Option (Nat × Nat × Nat) :=
  let pa := unredirect s pa
  match regionOf pa with
  | .stack g => (chans.idxOf? g).map (fun i => (0, i, pa - chanPa g))
  | .llm g => (granules.idxOf? g).map (fun i => (1, i, pa - granulePa g))
  | _ => none

/-- A page whose accesses go elsewhere holds nothing of its own (R179). -/
def leftPage (s : State) (pa : Nat) : Bool := redirect s pa != pa

/-- The migration image of a partition. -/
def imageOf (s : State) (n : Nat) : MigImage :=
  let chans := memSlices s n
  let granules := scratchGranules s n
  let p := partOf s n
  let place (pa : Nat) : Option (Nat × Nat × Nat) := if leftPage s pa then none else placeOf s chans granules pa
  { version := 1, srcVdid := p.vd.vdid, newest := p.keys.newest, older := p.keys.older
    clusters := computeSlices s n, chans, granules
    caches := tabKeys (fun _ g => g.valid && g.cache && g.part == n) s.granules
    part := { p with counters := [], progress := 0 }
    cells := s.mem.filterMap (fun x => (place x.1).map (fun q => (q.1, q.2.1, q.2.2, x.2)))
    metas := s.lmeta.filterMap (fun x => (place (x.1 * 128)).map (fun q => (q.1, q.2.1, q.2.2, x.2)))
    poisons := s.poison.filterMap (fun x => (place (x.1 * 64)).map (fun q => (q.1, q.2.1, q.2.2))) }

/-- SAVE (R338, R340, R345, R365): the image goes to host memory at GLB_MIG_IMAGE; its size is open in part (DESIGN CHOICE, log 67). -/
def execSave (n : Nat) (s : State) : Out :=
  if !migStarted s 2 n then .next s
  else
    let v := (partOf s n).vf
    if !movable s n || !frozen s n || !v.migTarget then .next (migDone s sRefused)
    else if !(portUsable s n 0 || portUsable s n 1) then .next (migDone s sTimeout)
    else
      let a := s.glb.migImage / 4096 * 4096
      let im := imageOf s n
      let (d, s) := draw s
      let s := modVf s n (fun v => { v with saved := true })
      let s := { s with glb := { s.glb with
        migLen := (Config.freeWord d).toNat % 2 ^ 40
        images := s.glb.images.filter (fun x => x.1 != a) ++ [(a, im)] } }
      .next (migDone s sOk)

-- RESTORE (R338–R340)

/-- A slice or granule of the image as the one in the same place here. -/
def mapTarget (im : MigImage) (chans granules : List Nat) (t : Nat × Bool × Nat) : Nat × Bool × Nat :=
  if t.1 = 0 then (0, false, (im.chans.idxOf? t.2.2).elim t.2.2 (fun i => chans.getD i 0))
  else (1, false, (im.granules.idxOf? t.2.2).elim t.2.2 (fun i => granules.getD i 0))

/-- A physical address of the image's module as one of this module. -/
def mapPa (im : MigImage) (chans granules : List Nat) (pa : Nat) : Nat :=
  match regionOf pa with
  | .stack g => (im.chans.idxOf? g).elim pa (fun i => chanPa (chans.getD i 0) + (pa - chanPa g))
  | .llm g => (im.granules.idxOf? g).elim pa (fun i => granulePa (granules.getD i 0) + (pa - granulePa g))
  | _ => pa

/-- The module of the image's partition. -/
def imageModule (im : MigImage) : Nat := ((im.part.vd.members.head?).map (·.modId)).getD 0

/-- The partition as the image has it, on this module's slices (R338, R339). -/
def restoredPart (s : State) (n : Nat) (im : MigImage) : Part :=
  let here := partOf s n
  let me := s.glb.moduleId
  let chans := memSlices s n
  let granules := scratchGranules s n
  let src := imageModule im
  let mod (m : Nat) : Nat := if m = src then me else m
  let p := im.part
  { p with
    vd := { here.vd with edition := p.vd.edition, secure := p.vd.secure, store := p.vd.store }
    ctx := { p.ctx with state := .frozen }
    vf := { here.vf with tdi := .unlocked, restored := true, saved := false, moved := false, migTarget := false, srcVdid := im.srcVdid, srcMod := src }
    ranges := p.ranges.map (fun r => if r.kind = 1 then { r with modId := mod r.modId, targets := r.targets.map (mapTarget im chans granules) } else r)
    residence := tabMapV (fun _ e => if e.dev then { e with phys := mapPa im chans granules e.phys } else e) p.residence
    colls := tabMapV (fun _ y => { y with running := false, triggered := if y.running then y.triggered else [] }) p.colls
    str := { p.str with tokens := tabMapV (fun _ t => (t.1, mod t.2)) p.str.tokens }
    journal := { p.journal with home := p.journal.home.map (fun it => { it with owner := mod it.owner }) }
    saves := p.saves.map (fun r => { r with place := r.place.map (mapPa im chans granules) })
    keys := { newest := im.newest, older := im.older, sweeping := p.keys.sweeping }
    carve := { p.carve with areas := p.carve.areas.map (fun a => (a.1, (im.chans.idxOf? a.2.1).elim a.2.1 (fun i => chans.getD i 0), a.2.2)) }
    counters := here.counters, progress := here.progress }

/-- One cell of the image put at its place here, through this module's redirects. -/
def cellPa (s : State) (chans granules : List Nat) (typ place off : Nat) : Nat :=
  redirect s ((if typ = 0 then chanPa (chans.getD place 0) else granulePa (granules.getD place 0)) + off)

/-- The contents of an image laid down. -/
def layCells (s : State) (n : Nat) (im : MigImage) : State :=
  let chans := memSlices s n
  let granules := scratchGranules s n
  { s with
    mem := im.cells.foldl (fun t c => tabSet 0#8 t (cellPa s chans granules c.1 c.2.1 c.2.2.1) c.2.2.2) s.mem
    lmeta := im.metas.foldl (fun t c => tabSet freshMeta t (cellPa s chans granules c.1 c.2.1 c.2.2.1 / 128) c.2.2.2) s.lmeta
    poison := im.poisons.foldl (fun t c => tabSet false t (cellPa s chans granules c.1 c.2.1 c.2.2 / 64) true) s.poison }

/-- Retired pages of this module that a restored partition uses are redirected first (R179). -/
def redirectRetired (s : State) (n : Nat) : State :=
  (memSlices s n).foldl (fun s g => (chanOf s g).retired.foldl (fun s q =>
    if pageInUse s n g q && !(chanOf s g).redirect.any (fun x => x.1 == q) then redirectPage s n g q else s) s) s

/-- A virtual device other than the image's holds the image's VDID, and this module has a partition of it or serves as its partner (R457). -/
def sameVdidHere (s : State) (n : Nat) (im : MigImage) : Bool :=
  (livePartsOf s).any (fun m => m != n && (partOf s m).vd.vdid == im.srcVdid && !(partOf s m).vd.members.any (fun x => x.modId == imageModule im)) ||
  s.atl.mirror.any (fun it => it.vdid == im.srcVdid && it.owner != imageModule im)

/-- What refuses a RESTORE beside the state of the context (R338, R457): the counts, the capacity, the tag, the VDID, staging for the registrations. -/
def restoreFits (s : State) (n : Nat) (im : MigImage) : Bool :=
  let cached := (tabKeys (fun _ g => g.valid && g.cache && g.part == n) s.granules).length
  let t := { s with parts := tabSet {} s.parts n (restoredPart s n im) }
  (computeSlices s n).length == im.clusters.length && (memSlices s n).length == im.chans.length && cached == im.caches.length &&
  (scratchGranules s n).length == im.granules.length && decide (usedPages t n ≤ placeable t n) && (partOfTag s im.part.ctx.tag).isNone &&
  !sameVdidHere s n im && decide (stagingUsed t 0 ≤ stagingBank) && decide (stagingUsed t 1 ≤ stagingBank)

/-- RESTORE (R338–R340, R363): the image at GLB_MIG_IMAGE becomes the partition's; its entries are mirrored to the partner here. -/
def execRestoreImage (n : Nat) (image : MigImage) (authentic : Bool) (s : State) : Out :=
  if !migStarted s 3 n then .next s
  else if !movable s n || (partOf s n).ctx.state ≠ .none then .next (migDone s sRefused)
  else if image.version ≠ 1 then .next (migDone s sBadPacket)
  else if !authentic then .next (migDone (raiseAlarm s 4) sBadPacket)
  else if !restoreFits s n image then .next (migDone s sRefused)
  else
    let s := { s with parts := tabSet {} s.parts n (restoredPart s n image) }
    let s := if (partOf s n).vd.secure then lockHere s n else s
    let s := layCells (redirectRetired s n) n image
    let s := if (partOf s n).vd.partnerValid then (partOf s n).journal.home.foldl (fun s it => sendMirror s n it) s else s
    .next (migDone s sOk)

-- THAW and DISCARD (R338, R339)

/-- The VDID of the image moves to the destination (R339): a new edition, the destination's own VDID freed, the source told. -/
def moveVdid (s : State) (n : Nat) : State :=
  let p := partOf s n
  let old := p.vd.vdid
  let s := applyEdition s n (p.vd.edition + 1)
  let s := vdidMoved s p.vf.srcVdid
  let s := modVd s n (fun v => { v with vdid := p.vf.srcVdid })
  let s := if p.vf.srcMod = s.glb.moduleId then s else sendAtlas s p.vf.srcMod atlMoved p.vf.srcVdid []
  if isRoot s || !s.fab.rootValid then vdidGone s old else sendAtlas s s.fab.rootId atlGoneVdid old []

/-- THAW (R338, R339, R364): ACTIVE again; after a RESTORE the VDID moves first, which takes an Atlas root where the module has a
valid ID (log 56). A source whose VDID has moved is refused (DEDUCED, log 114). -/
def execThaw (n : Nat) (s : State) : Out :=
  if !migStarted s 4 n then .next s
  else
    let v := (partOf s n).vf
    if !movable s n || !frozen s n || v.moved then .next (migDone s sRefused)
    else if v.restored && !s.fab.rootValid && s.glb.idValid then .next s
    else
      let s := if v.restored then moveVdid s n else s
      let s := modVf s n (fun v => { v with tdi := if v.restored then .unlocked else v.tdi, restored := false, saved := false })
      .next (migDone (modCtx s n (fun c => { c with state := .active })) sOk)

/-- A discarded context is gone: its journal entries with it, its slices free for VD_RELEASE. -/
def discardSettled (s : State) (n : Nat) : State := if queuesGone (partOf s n) then migDone (ctxGone s n) sOk else s

/-- DISCARD (R338): of a FROZEN context that has been saved, as CTX_DESTROY; it is served until its queues are gone. -/
def execDiscard (n : Nat) (s : State) : Out :=
  if !migStarted s 5 n then .next s
  else if s.glb.migBusy then .next (discardSettled s n)
  else if !movable s n || !frozen s n || !(partOf s n).vf.saved then .next (migDone s sRefused)
  else
    let s := modCtx s n (fun c => { c with state := .destroying })
    let s := stopCores (abortWave s n 2 sAborted) n
    let s := { s with glb := { s.glb with migBusy := true } }
    .next (discardSettled (destroyQueues s n) n)

end Sys2Proof.Machine
end

