-- ==== Sys2Proof/Machine/Security.lean ====
section
/-! DEFINITION. Cartouche's services: the SEC mailbox, tenant keys, SPDM, alarm sources, decommissioning and debug (R352, R353, R356–R370). -/

namespace Sys2Proof.Machine

-- the SEC mailbox (R364–R366)

/-- The operation of SEC_MBX_CTL that the row stands for is the one that GO has started. -/
def mbxStarted (s : State) (op : Nat) : Bool := s.sec.mbxGo && s.sec.mbxOp == op

/-- GO cleared with a status (R366). -/
def mbxDone (s : State) (status : Nat) : State := { s with sec := { s.sec with mbxGo := false, mbxStatus := status } }
def mbxArg (s : State) (j : Nat) : Nat := (tabGet 0 s.sec.mbxArg j).toNat
def setArg (s : State) (j v : Nat) : State := { s with sec := { s.sec with mbxArg := tabSet 0 s.sec.mbxArg j (BitVec.ofNat 64 v) } }

/-- The generation after another (R361). -/
def nextGen (g : Nat) : Nat := g % 3 + 1

/-- Members and outside journal partners that hold a virtual device's keys, beside this module (R360). -/
def keyHolders (s : State) (n : Nat) : List Nat :=
  let vd := (partOf s n).vd
  let outer := ((outerPartner vd).toList ++ (vd.members.filter (fun m => m.partnerValid && !vd.members.any (fun x => x.modId == m.partner))).map (·.partner)).eraseDups
  otherMembers s n ++ outer.filter (· != s.glb.moduleId)

/-- The new generation sent to those that have not acknowledged it (R364 step 1). -/
def sendRotation (s : State) (n g : Nat) (to_ : List Nat) : State :=
  let k := (partOf s n).keys
  to_.foldl (fun s m => sendAtlas s m atlKeys (partOf s n).vd.vdid (natBytes 8 g ++ natBytes 8 k.newest)) s

/-- Step 2 of R364: the units here seal under the new generation, and the sweep begins. -/
def rotated (s : State) (n g : Nat) : State :=
  let left := otherMembers s n
  let s := modPart s n (fun p => { p with keys := { p.keys with
    newest := g, older := p.keys.newest, sweeping := true, sweepLeft := left, rotator := none, rotating := none } })
  mbxDone (setArg s 0 g) sOk

/-- KEY_ROTATE (R364, R366): served until every holder has acknowledged the generation; after a part fault it is sent again (DEDUCED, log 113). -/
def execKeyRotate (s : State) : Out :=
  if !mbxStarted s 1 then .next s
  else match partOfVdid s (mbxArg s 0 % 2 ^ 24) with
    | none => .next (mbxDone s sRefused)
    | some n =>
      let p := partOf s n
      match p.keys.rotating with
      | some (g, left) =>
        if p.ctx.state ≠ .active then .next s
        else if left = [] then .next (rotated s n g)
        else .next (sendRotation s n g left)
      | none =>
        if p.ctx.state ≠ .active || p.keys.older ≠ 0 then .next (mbxDone s sRefused)
        else
          let g := nextGen p.keys.newest
          let to_ := keyHolders s n
          if to_ = [] then .next (rotated s n g)
          else
            let s := modPart s n (fun p => { p with keys := { p.keys with rotating := some (g, to_) } })
            .next (sendRotation s n g to_)

/-- RESEAL_SWEEP_END (R364): the sweep of this module has ended; it pauses while the context is FROZEN. -/
def execResealSweepEnd (n : Nat) (s : State) : Out :=
  let k := (partOf s n).keys
  if !k.sweeping || frozen s n then .next s
  else
    let s := modPart s n (fun p => { p with keys := { p.keys with sweeping := false } })
    match k.rotator with
    | some m => .next (sendAtlas s m atlSwept (partOf s n).vd.vdid [])
    | none => .next (eraseOld s n)

/-- MIG_TARGET (R365, R366): the destination's chain, as Cartouche verifies it. -/
def execMigTarget (chainOk killed opn : Bool) (s : State) : Out :=
  if !mbxStarted s 2 then .next s
  else
    let n := mbxArg s 0 % 64
    let ok := chainOk && !killed && !(opn && s.nv.lifecycle == 2)
    if !(partOf s n).vd.used || bits (mbxArg s 2) 31 0 > 16384 then .next (mbxDone s sRefused)
    else .next (mbxDone (modVf s n (fun v => { v with migTarget := ok })) (if ok then sOk else sRefused))

/-- COMMIT_SVN (R356, R366): the fused minimum rises to the running version, which the 64 fuses can hold; not after a boot by fallback. -/
def execCommitSvn (s : State) : Out :=
  if !mbxStarted s 3 then .next s
  else if s.sec.fallback || s.sec.svnRunning > 64 then .next (mbxDone s sRefused)
  else
    let s := { s with nv := { s.nv with svnFused := Nat.max s.nv.svnFused s.sec.svnRunning } }
    .next (mbxDone (setArg s 0 s.nv.svnFused) sOk)

/-- KEY_STATUS (R366). -/
def execKeyStatus (s : State) : Out :=
  if !mbxStarted s 4 then .next s
  else match partOfVdid s (mbxArg s 0 % 2 ^ 24) with
    | none => .next (mbxDone s sRefused)
    | some n =>
      let k := (partOf s n).keys
      .next (mbxDone (setArg s 1 (k.newest + 4 * k.older + 16 * b2n k.sweeping)) sOk)

/-- TENANT_KEY_DELIVERY (R360): wrapped generations from another Cartouche; a zeroised one has no key to unwrap them with (R367). -/
def execTenantKeyDelivery (vdid gen older : Nat) (source : Nat) (s : State) : Out :=
  if gen > 3 || older > 3 || source = s.glb.moduleId || s.sec.zeroised then .next s else .next (takeKeys s vdid gen older)

-- SPDM (R358, R359)

abbrev ansVersion : Nat := 1
abbrev ansCapabilities : Nat := 2
abbrev ansAlgorithms : Nat := 3
abbrev ansDigests : Nat := 4
abbrev ansCertificate : Nat := 5
abbrev ansChallenge : Nat := 6
abbrev ansMeasurements : Nat := 7
abbrev ansKeyExchange : Nat := 8
abbrev ansFinish : Nat := 9
abbrev ansHeartbeat : Nat := 10
abbrev ansKeyUpdate : Nat := 11
abbrev ansEndSession : Nat := 12
abbrev ansVendor : Nat := 13

def sessionOf (s : State) (i : Nat) : Session := tabGet {} s.sec.sessions i
def modSession (s : State) (i : Nat) (f : Session → Session) : State := { s with sec := { s.sec with sessions := tabMod {} s.sec.sessions i f } }

/-- Cartouche answers: it has booted, and the session is one of its ten (R358). -/
def spdmUp (s : State) (i : Nat) : Bool := decide (i < 10) && decide (s.glb.stage ≥ 6)

/-- A request accepted or refused with an error; `k` words of the answer are decided by keys or content outside the spec, and free. -/
def spdm (s : State) (i req : Nat) (ok : Bool) (f : Session → Session) (words : List W64) (k : Nat) : Out :=
  if !spdmUp s i then .next s
  else if !ok then .next (answerMgmt s req false [])
  else
    let free := (List.range k).map (fun j => Config.freeWord (s.draws + j))
    .next (answerMgmt { modSession s i f with draws := s.draws + k } req true (words ++ free))

/-- GET_VERSION (R358): 1.3 and 1.2; a connection begins anew. -/
def execGetVersion (session : Nat) (s : State) : Out := spdm s session ansVersion true (fun _ => { state := 1 }) [0x13, 0x12] 0

/-- GET_CAPABILITIES (R358). -/
def execGetCapabilities (session : Nat) (s : State) : Out :=
  spdm s session ansCapabilities ((sessionOf s session).state == 1) (fun x => { x with state := 2 }) [] 0

/-- NEGOTIATE_ALGORITHMS (R358): the one suite, its four parts numbered 0 ECDSA P-384, 1 SHA-384, 2 secp384r1, 3 AES-256-GCM (log 71). -/
def execNegotiateAlgorithms (session : Nat) (offered : List Nat) (s : State) : Out :=
  spdm s session ansAlgorithms ((sessionOf s session).state == 2 && (List.range 4).all (fun a => offered.contains a)) (fun x => { x with state := 3 }) [0, 1, 2, 3] 0

/-- GET_DIGESTS (R358): of slot 0. -/
def execGetDigests (session : Nat) (s : State) : Out :=
  spdm s session ansDigests (decide ((sessionOf s session).state ≥ 3)) id [] 6

/-- GET_CERTIFICATE (R357, R358): the chain of slot 0. -/
def execGetCertificate (session slot : Nat) (s : State) : Out :=
  spdm s session ansCertificate (decide ((sessionOf s session).state ≥ 3) && slot == 0) id [] 6

/-- CHALLENGE (R357, R358): signed with Alias over the nonce. -/
def execChallenge (session slot : Nat) (nonce : W64) (s : State) : Out :=
  spdm s session ansChallenge (decide ((sessionOf s session).state ≥ 3) && slot == 0 && s.sec.aliasHeld) id [nonce] 12

/-- One measurement block (R359): block 6 of the security versions, block 8 raw, the others of the running image. -/
def measured (s : State) (i : Nat) : W64 :=
  if i = 6 then Config.measurement 6 (s.nv.svnFused * 256 + s.sec.svnRunning)
  else if i = 8 then BitVec.ofNat 64 (s.nv.lifecycle + 4 * b2n s.sec.quarantine + 8 * s.nv.a3Count + 256 * maskOf s.sec.debug)
  else Config.measurement i s.sec.svnRunning

/-- GET_MEASUREMENTS (R359): index 0 asks how many there are, 1 to 8 for one block, 255 for all. -/
def execGetMeasurements (session index : Nat) (s : State) : Out :=
  let words := if index = 0 then [8] else if index = 255 then (List.range 8).map (fun i => measured s (i + 1)) else [measured s index]
  spdm s session ansMeasurements (decide ((sessionOf s session).state ≥ 3) && s.sec.aliasHeld && (decide (index ≤ 8) || index == 255)) id words 0

/-- KEY_EXCHANGE (R358): signed with Alias. -/
def execKeyExchange (session : Nat) (s : State) : Out :=
  spdm s session ansKeyExchange ((sessionOf s session).state == 3 && s.sec.aliasHeld) (fun x => { x with state := 4 }) [] 12

/-- FINISH (R358): `ok` is whether the requester's proof is right; a wrong one ends the exchange. -/
def execFinish (session : Nat) (ok : Bool) (s : State) : Out :=
  if (sessionOf s session).state = 4 && !ok && spdmUp s session then .next (answerMgmt (modSession s session (fun x => { x with state := 3 })) ansFinish false [])
  else spdm s session ansFinish ((sessionOf s session).state == 4 && ok) (fun _ => { state := 5, keyGen := 1 }) [] 0

/-- HEARTBEAT (R358). -/
def execHeartbeat (session : Nat) (s : State) : Out := spdm s session ansHeartbeat ((sessionOf s session).state == 5) id [] 0

/-- KEY_UPDATE (R358). -/
def execKeyUpdate (session : Nat) (s : State) : Out :=
  spdm s session ansKeyUpdate ((sessionOf s session).state == 5) (fun x => { x with keyGen := x.keyGen + 1 }) [] 0

/-- END_SESSION (R358). -/
def execEndSession (session : Nat) (s : State) : Out :=
  spdm s session ansEndSession ((sessionOf s session).state == 5) (fun _ => { state := 3 }) [] 0

/-- VENDOR_DEFINED_REQUEST (R321, R358): IDE_KM is protocol 0 and TDISP protocol 1, as the PCI-SIG numbers them (PRESUMED, log 71). K_SET_GO and
K_SET_STOP of IDE_KM start and stop the link stream of the session's port; a TDISP message has its own row. -/
def execVendorDefinedRequest (session : Nat) (proto : Nat) (payload : List Byte) (s : State) : Out :=
  let ok := (sessionOf s session).state == 5 && decide (proto ≤ 1) && decide (session < 8)
  let obj := (payload.headD 0).toNat
  let s := if ok && proto == 0 && (obj == 4 || obj == 5) && spdmUp s session then modPort s (session / 4) (fun p => { p with ideLink := obj == 4 }) else s
  spdm s session ansVendor ok id [] 0

-- alarm sources (R367, R368, R443)

/-- An alarm from a source that the standby domain watches too: latched while main conversion is off (R443). -/
def alarmOrLatch (s : State) (code : Nat) : State :=
  if s.pwr.converting then raiseAlarm s code
  else { s with sec := { s.sec with latched := if s.sec.latched.contains code then s.sec.latched else s.sec.latched ++ [code] } }

/-- ALARM (R367, R368): a source of the table. -/
def execAlarm (code : Nat) (s : State) : Out := if code = 0 || code > 12 then .next s else .next (alarmOrLatch s code)

/-- TAMPER_LOOP_OPEN (R368): code 0x0A. -/
def execTamperLoopOpen (s : State) : Out := .next (alarmOrLatch s 0x0A)

/-- TAMPER_MESH_BREACH (R368): code 0x0B. -/
def execTamperMeshBreach (s : State) : Out := .next (alarmOrLatch s 0x0B)

/-- MONITOR_OUT_OF_RANGE (R368): code 0x08, by a monitor of Cartouche, which has no power while conversion is off. -/
def execMonitorOutOfRange (s : State) : Out := if s.pwr.converting then .next (raiseAlarm s 0x08) else .next s

/-- FAULT_INJECTION_DETECT (R368): code 0x09, likewise. -/
def execFaultInjectionDetect (s : State) : Out := if s.pwr.converting then .next (raiseAlarm s 0x09) else .next s

/-- DECOMMISSION_REQUEST (R352): the kill fuse, and the identity with it. -/
def execDecommissionRequest (authorised : Bool) (s : State) : Out :=
  if !authorised || !(s.nv.lifecycle == 1 || s.nv.lifecycle == 2) then .next s
  else .next { alarmA4 s with sec := { s.sec with deviceId := false, aliasHeld := false } }

/-- Units that debug may reach at all: CP0–CP3 and MP by their index, engines from 16 (R353). -/
def debuggable (t : Nat) : Bool := decide (t < 5) || (decide (16 ≤ t) && decide (t < 32))

/-- DEBUG_AUTHORISATION (R353, R368 code 0x05). -/
def execDebugAuthorisation (authorised : Bool) (target : Nat) (s : State) : Out :=
  let may := s.nv.lifecycle == 1 || (s.nv.lifecycle == 2 && authorised && !secureResident s)
  if may && debuggable target && !s.sec.quarantine then
    .next { s with sec := { s.sec with debug := if List.contains s.sec.debug target then s.sec.debug else s.sec.debug ++ [target] } }
  else .next (raiseAlarm s 5)

end Sys2Proof.Machine
end

