-- ==== Sys2Proof/Machine/Bringup.lean ====
section
/-! DEFINITION. Power, secure boot, bring-up, pins and firmware update (R355, R356, R438, R443–R452). -/

namespace Sys2Proof.Machine

-- pins (R444, R446, R447, R452)

/-- VIN lies inside its operating range (R442, R444). -/
def vinGood (p : Power) : Bool := decide (4600 ≤ p.vin) && decide (p.vin ≤ 5950)

/-- PWR_EN_RISE (R438, R444): bring-up starts with VIN in range; after a thermal shutdown, once the cold plate is at 70 °C or below. -/
def execPwrEnRise (s : State) : Out :=
  if s.pwr.converting || s.pwr.pwrEn then .next s
  else
    let s := { s with pwr := { s.pwr with pwrEn := true } }
    if !vinGood s.pwr then .next s
    else if s.pwr.thermal && s.pwr.coldPlate > 70 then .next { s with pwr := { s.pwr with cooling := true } }
    else .next (startConversion s)

/-- PWR_EN_FALL (R447, R452): a cold reset without a crash dump; conversion stops. -/
def execPwrEnFall (s : State) : Out :=
  let s := powerLost s
  .next { s with pwr := { s.pwr with pwrEn := false, cooling := false } }

/-- MOD_RST_N_FALL (R446, R452): a failure of the module for its virtual devices, its crash dump, and the warm reset that the pin holds. A dump that
is due already is written first. -/
def execModRstNFall (s : State) : Out :=
  if s.pwr.modRstLow then .next s
  else
    let s := { s with pwr := { s.pwr with modRstLow := true } }
    if !s.pwr.converting then .next s else .next (dumpAndReset (if s.err.failing.isSome then s else moduleFails s 1) (s.err.failing.getD 1))

/-- MOD_RST_N_RISE (R446): bring-up from step 4; the rise is its reference. -/
def execModRstNRise (s : State) : Out :=
  if !s.pwr.modRstLow then .next s
  else
    let s := { s with pwr := { s.pwr with modRstLow := false } }
    if !s.pwr.converting then .next s else .next { s with glb := { s.glb with stage := 4, bootRef := s.pwr.meridian } }

-- secure boot (R355, R356, R443)

/-- A slot's image passes: `ok` is what the signature and decryption checks find; its version is not below the fused minimum. -/
def slotBoots (s : State) (x : FwSlot) (ok : Bool) : Bool := ok && x.good && decide (s.nv.svnFused ≤ x.svn)

/-- Cartouche runs a slot's image: the identity is derived, the processors are released, alarms latched in standby are acted on. -/
def bootSlot (s : State) (b fallback : Bool) : State :=
  let x := if b then s.nv.slotB else s.nv.slotA
  let latched := s.sec.latched
  let s := { s with
    nv := { s.nv with bootCount := s.nv.bootCount + 1 }
    sec := { s.sec with slot := b, fallback, svnRunning := x.svn, aliasHeld := true, deviceId := true, linksPermitted := true, latched := [] }
    glb := { s.glb with stage := 6 } }
  latched.foldl raiseAlarm s

/-- SECURE_BOOT (R355, R356, R368): the active slot, then the other; each failure raises alarm 0x06. A KILLED module's ROM halts. -/
def execSecureBoot (okA okB : Bool) (s : State) : Out :=
  if !s.pwr.converting || s.pwr.modRstLow || s.nv.lifecycle = 3 || !(s.glb.stage == 4 || s.glb.stage == 5) then .next s
  else
    let good (b : Bool) : Bool := if b then slotBoots s s.nv.slotB okB else slotBoots s s.nv.slotA okA
    let first := s.nv.bootB
    if good first then .next (bootSlot s first false)
    else if good (!first) then .next (raiseAlarm (bootSlot s (!first) true) 6)
    else .next (raiseAlarm (raiseAlarm s 6) 6)

-- stacks and readiness (R444, R451)

/-- The Legend entries of compute and memory slices after the erases of step 9 (R350). -/
def erasedLegend : Tab Legend :=
  (List.range 448).map (fun k =>
    let r : Region := if k < 64 then .cluster k else .stack (k - 64)
    (k, { valid := true, owner := 0x7F, base := regionBase r, limit := regionLimit r, rights := rightsErase }))

/-- A slice at the end of bring-up (R444 step 9, R386): erased and FREE, one with a return mark still bound for its partition; a channel that failed
training, or was in test before, HELD for self-test (R395); a retired one as it was. The built-in test passes: no command gives its outcome (DESIGN CHOICE, log 75). -/
def bootSlice (failed : List Nat) (k : Nat) (x : Slice) : Slice :=
  if x.state = .retired then x
  else if failed.contains k || (decide (64 ≤ k) && x.state == .held && x.testing) then { x with state := .held, testing := true }
  else { state := .free, owner := if x.ret then x.owner else 0, ret := x.ret }

/-- Steps 8 to 10 of R444, once every stack has been tried: READY. A module ID held through a warm reset is claimed again (R313). -/
def finishBoot (s : State) : State :=
  let failed := (List.range 384).filterMap (fun g => if (chanOf s g).trained then none else some (64 + g))
  let s := { s with
    slices := failed.foldl (fun t k => tabMod {} t k (bootSlice failed k)) (tabMapV (bootSlice failed) s.slices)
    sec := { s.sec with legend := erasedLegend }
    glb := { s.glb with ready := true, stage := 10, ready10 := Nat.min 4095 ((s.pwr.meridian - s.glb.bootRef) / 10000000) } }
  if s.fab.reclaim then
    outState s (execLnkModidWrite (BitVec.ofNat 32 s.fab.modidReg) { s with fab := { s.fab with reclaim := false } })
  else s

/-- STACK_TRAINING (R444 step 8): a stack that fails is trained once more, and after a second failure its channels go to self-test. -/
def execStackTraining (stack : Nat) (ok : Bool) (s : State) : Out :=
  if stack ≥ 12 || s.glb.stage < 6 || s.glb.ready || s.pwr.modRstLow || !s.pwr.converting || bitOf s.glb.tried stack then .next s
  else if !ok && !bitOf s.glb.failedOnce stack then .next { s with glb := { s.glb with failedOnce := s.glb.failedOnce + 2 ^ stack } }
  else
    let s := if ok then (List.range 32).foldl (fun s i => modChan s (32 * stack + i) (fun c => { c with trained := true })) s else s
    let s := { s with glb := { s.glb with tried := s.glb.tried + 2 ^ stack, stackBits := if ok then s.glb.stackBits + 2 ^ stack else s.glb.stackBits } }
    if s.glb.tried = 4095 then .next (finishBoot s) else .next s

-- firmware update (R449, R452)

abbrev ansTransfer : Nat := 64
abbrev ansActivate : Nat := 65
/-- PLDM's completion code for a request in update mode, as this model's answers give it (log 76). -/
abbrev alreadyInUpdateMode : W64 := 0x81

/-- The slot that an update writes: the one that does not run. -/
def inactive (s : State) : FwSlot := if s.sec.slot then s.nv.slotA else s.nv.slotB
def setInactive (s : State) (x : FwSlot) : State :=
  { s with nv := if s.sec.slot then { s.nv with slotA := x } else { s.nv with slotB := x } }

/-- PLDM_FW_TRANSFER (R449, R452): the first call begins a transfer into the inactive slot, whose old image is gone; the next ends it, and Cartouche
verifies it, `ok` being what the checks find. Further requests meet update mode. -/
def execPldmFwTransfer (svn : Nat) (ok : Bool) (s : State) : Out :=
  if s.glb.stage < 6 || s.nv.lifecycle = 3 then .next s
  else if !s.sec.updating then
    .next (setInactive { s with sec := { s.sec with updating := true } } { svn := svn % 256, good := false })
  else if (inactive s).good then .next (answerMgmt s ansTransfer false [alreadyInUpdateMode])
  else if ok && s.nv.svnFused ≤ svn then .next (answerMgmt (setInactive s { svn := svn % 256, good := true }) ansTransfer true [])
  else .next (answerMgmt (raiseAlarm { s with sec := { s.sec with updating := false } } 6) ansTransfer false [])

/-- ACTIVATE_FIRMWARE (R449): the verified slot boots next. -/
def execActivateFirmware (s : State) : Out :=
  if s.glb.stage < 6 || s.nv.lifecycle = 3 then .next s
  else if s.sec.updating && (inactive s).good then
    .next (answerMgmt { s with nv := { s.nv with bootB := !s.sec.slot }, sec := { s.sec with updating := false } } ansActivate true [])
  else .next (answerMgmt s ansActivate false [])

end Sys2Proof.Machine
end

