-- ==== Sys2Proof/Machine/Local.lean ====
section
/-! DEFINITION. Loads and stores of local memory (R65, R70, R76, R126). -/

namespace Sys2Proof.Machine

/-- Bytes of a scalar access by its size field (R70); sizes 4 to 7 are not assigned. -/
def sizeBytes (size : BitVec 3) : Nat := 2 ^ size.toNat
def sizeLegal (size : BitVec 3) : Bool := decide (size.toNat ≤ 3)

/-- A scalar load (R70): `ext` extends the value read of the given width in bits. -/
def loadOp (c major : Nat) (rd base : BitVec 5) (off : BitVec 13) (size : BitVec 3) (ext : Nat → Nat → W64) (s : State) : State :=
  issue s c (wordM major rd base off size) (sizeLegal size) (fun k =>
    let n := sizeBytes size
    let a := effAddr k base.toNat off n
    match localFault a n with
    | some f => .fault f (some a)
    | none =>
      if localPoisoned k a.toNat n then .poisoned a.toNat
      else .ok (nextPc (sWrite k rd.toNat (ext (8 * n) (bytesNat (tabBytes k.lmem a.toNat n))))))

/-- LD sign-extends (R70). -/
def execLd (c : Nat) (rd base : BitVec 5) (off : BitVec 13) (size : BitVec 3) (s : State) : Out :=
  .next (loadOp c 16 rd base off size (fun w v => BitVec.ofInt 64 (signed w v)) s)

/-- LDU zero-extends (R70). -/
def execLdu (c : Nat) (rd base : BitVec 5) (off : BitVec 13) (size : BitVec 3) (s : State) : Out :=
  .next (loadOp c 17 rd base off size (fun _ v => BitVec.ofNat 64 v) s)

/-- ST stores the low bytes of rd (R70); a write into an open node stack faults (R76). -/
def execSt (c : Nat) (rd base : BitVec 5) (off : BitVec 13) (size : BitVec 3) (s : State) : Out :=
  .next (issue s c (wordM 18 rd base off size) (sizeLegal size) (fun k =>
    let n := sizeBytes size
    let a := effAddr k base.toNat off n
    match localFault a n with
    | some f => .fault f (some a)
    | none =>
      if nodeProtected k a.toNat n then .fault 6 (some a)
      else .ok (nextPc (localWrite k a.toNat (natBytes n (sRead k rd.toNat).toNat)))))

/-- VLD (R70): 128 bytes; predicate bit i governs 32-bit lane i (R63; DEDUCED, log 18). -/
def execVld (c : Nat) (vd base : BitVec 5) (off : BitVec 13) (pred : BitVec 3) (s : State) : Out :=
  .next (issue s c (wordM 19 vd base off pred) true (fun k =>
    let a := effAddr k base.toNat off 128
    match localFault a 128 with
    | some f => .fault f (some a)
    | none =>
      if localPoisoned k a.toNat 128 then .poisoned a.toNat
      else
        let new := lanes (BitVec.ofNat 1024 (bytesNat (tabBytes k.lmem a.toNat 128))) 32
        .ok (nextPc (vWrite k vd.toNat (ofLanes 32 (mergeLanes (pRead k pred.toNat) (lanes (vRead k vd.toNat) 32) new))))))

/-- The 128 bytes that VST leaves at its address: active lanes from the register, the others as they were. -/
def vstBytes (k : Core) (vd : Nat) (p : W64) (a : Nat) : List Byte :=
  let old := lanes (BitVec.ofNat 1024 (bytesNat (tabBytes k.lmem a 128))) 32
  natBytes 128 (ofLanes 32 (mergeLanes p old (lanes (vRead k vd) 32))).toNat

/-- VST (R70), predicated as VLD. -/
def execVst (c : Nat) (vd base : BitVec 5) (off : BitVec 13) (pred : BitVec 3) (s : State) : Out :=
  .next (issue s c (wordM 20 vd base off pred) true (fun k =>
    let a := effAddr k base.toNat off 128
    let p := pRead k pred.toNat
    match localFault a 128 with
    | some f => .fault f (some a)
    | none =>
      if (List.range 32).any (fun i => active p i && nodeProtected k (a.toNat + 4 * i) 4) then .fault 6 (some a)
      else
        let k' := localWrite k a.toNat (vstBytes k vd.toNat p a.toNat)
        -- a word with an inactive lane is not written whole and keeps its poison
        let keep (w : Nat) : Bool := tabGet false k.lpoison (a.toNat / 64 + w) && !(List.range 16).all (fun i => active p (16 * w + i))
        let lp := tabSet false (tabSet false k'.lpoison (a.toNat / 64) (keep 0)) (a.toNat / 64 + 1) (keep 1)
        .ok (nextPc { k' with lpoison := lp })))

end Sys2Proof.Machine
end

