-- ==== Sys2Proof/Machine/RegRead.lean ====
section
/-! DEFINITION. The register maps of the functions and of the event controller's targets: what each register reads, and register reads (R6–R10, R11, R33, R34, R150–R153, R183–R186, R216, R217, R224, R239, R252–R255, R287–R292, R320, R325, R326, R332–R337, R344, R351, R352, R354, R366, R370, R372, R396, R414, R417, R418, R428, R434, R451). -/

namespace Sys2Proof.Machine

/-- Whose registers an access addresses: the PF's or a VF's BAR0 on a port, or the event controller's view of a target. -/
inductive View where
  | pf (port : Nat)
  | vf (port n : Nat)
  | evc (target : Nat)
  deriving DecidableEq, Repr

/-- A register as an access finds it: 64 bits wide or 32, the offset it begins at, what it reads. -/
structure Reg where
  wide : Bool
  base : Nat
  value : Nat
  deriving DecidableEq, Repr

def reg32 (o v : Nat) : Option Reg := some { wide := false, base := o, value := v % 2 ^ 32 }
/-- The 64-bit register that the word at `o` belongs to. -/
def reg64 (o v : Nat) : Option Reg := some { wide := true, base := o / 8 * 8, value := v % 2 ^ 64 }
/-- Whether `o` lies in an array of `k` elements of `size` bytes from `base`. -/
def inArray (o base size k : Nat) : Bool := decide (base ≤ o) && decide (o < base + size * k)
/-- A number cut at the greatest that a field of `w` bits holds. -/
def cutTo (w v : Nat) : Nat := Nat.min v (2 ^ w - 1)

-- GLB (R11, R33, R34, R326, R332, R333, R337, R344, R451)

def tdiCode : Tdi → Nat | .unlocked => 0 | .locked => 1 | .run => 2 | .error => 3

/-- GLB_VF_PORT (R332). -/
def vfPortReg (s : State) (n : Nat) : Nat :=
  let v := (partOf s n).vf
  if !(partOf s n).vd.used then 0
  else b2n v.switchReq * 2 ^ 31 + b2n v.refused * 2 ^ 10 + b2n v.failedOver * 2 ^ 9 + tdiCode v.tdi * 2 ^ 4 + b2n v.active * 4 + b2n v.exposedB * 2 + b2n v.exposedA

/-- GLB_PORT (R333). -/
def portReg (s : State) (i : Nat) : Nat :=
  let p := portOf s i
  p.link * 2 ^ 28 + p.gen * 2 ^ 24 + p.width * 2 ^ 19 + b2n p.ideLink * 2 ^ 18 + b2n p.flit * 2 ^ 17 + b2n p.perst * 2 ^ 16 + cutTo 16 p.failovers

def mbxOf (s : State) (port n : Nat) : Mbx := tabGet {} s.glb.mbx (64 * port + n)

/-- GLB_BOOT (R451). -/
def bootReg (s : State) : Nat :=
  let g := s.glb
  b2n g.ready * 2 ^ 31 + b2n g.cold * 2 ^ 30 + g.stage * 2 ^ 24 + g.stackBits % 2 ^ 12 * 2 ^ 12 + cutTo 12 g.ready10

def glbReg (s : State) (o : Nat) : Option Reg :=
  let g := s.glb
  if o = 0x8 then reg32 o 0x0300
  else if o = 0x10 then reg32 o 0x184C2040
  else if o = 0x14 then reg32 o (if g.idValid then 2 ^ 31 + g.moduleId else 0)
  else if o = 0x20 then reg32 o (bootReg s)
  else if inArray o 0x1000 4 2 then reg32 o (portReg s ((o - 0x1000) / 4))
  else if inArray o 0x1100 4 64 then reg32 o (vfPortReg s ((o - 0x1100) / 4))
  else if o = 0x1200 then reg32 o (b2n g.migGo * 2 ^ 31 + g.migStatus * 2 ^ 16 + g.migOp * 2 ^ 8 + g.migPart)
  else if inArray o 0x1208 8 1 then reg64 o g.migImage
  else if inArray o 0x1210 8 1 then reg64 o g.migLen
  else if inArray o 0x1300 8 2 then reg64 o (tabGet 0 g.pend ((o - 0x1300) / 8)).toNat
  else if o = 0x1310 then reg32 o 0
  else if inArray o 0x1400 64 16 then
    (if (o - 0x1400) % 64 / 8 < 7 then reg64 o (tabGet 0 g.store ((o - 0x1400) / 8)).toNat else none)
  else if inArray o 0x2000 0x8000 2 then
    let m := mbxOf s ((o - 0x2000) / 0x8000) ((o - 0x2000) % 0x8000 / 512)
    let x := (o - 0x2000) % 512
    reg32 o (bytesNat (if x < 0x100 then tabBytes m.req x 4 else tabBytes m.rep (x - 0x100) 4))
  else none

-- CQ (R224, R236, R252–R254)

/-- A queue's oldest unstarted command waits on a fence (R224). -/
def queueWaits (s : State) (f q : Nat) : Bool :=
  match (queueOf s f q).cmds.find? (fun c => c.phase == .fetched) with
  | some c => cmdWait c && !waitSatisfied (fenceSeen s f c.fwait) c.waitVal
  | none => false
/-- A queue is held: its completion ring has no free slot (R223). -/
def queueFull (x : Queue) : Bool := x.created && !cqRoom x

/-- A doorbell page (R224). -/
def doorbellReg (s : State) (f q x o : Nat) : Option Reg :=
  let y := queueOf s f q
  if x = 0 then reg32 o y.sqTail
  else if x = 4 then reg32 o y.cqHead
  else if x = 8 then reg32 o (b2n y.destroying * 8 + b2n (queueFull y) * 4 + b2n (queueWaits s f q) * 2 + b2n y.created)
  else if x = 0xC then reg32 o y.fetched
  else none

/-- CQ_VD_STATE (R254). -/
def vdStateReg (s : State) (n : Nat) : Nat :=
  let p := partOf s n
  let c := p.ctx
  let some6 (t : Queue → Bool) : Nat := maskOf ((List.range 6).filter (fun q => t (queueOf s n q)))
  c.tag * 2 ^ 48 + ctxCode c.state * 2 ^ 44 + c.cause * 2 ^ 36 + some6 (·.created) * 2 ^ 30 + some6 queueFull * 2 ^ 24

/-- A fence word through a function's window (R236). -/
def fenceReg (s : State) (f i o : Nat) : Option Reg :=
  let p := partOf s f
  reg64 o (if p.fences.exist && i < p.fences.count && (f = 64 || p.vd.front) then (fenceSeen s f i).toNat else 0)

def cqReg (s : State) (o : Nat) : Option Reg :=
  let c := s.cq
  if inArray o 0x0 8 1 then reg64 o (6 * 2 ^ 32 + 0x0C40400C)
  else if o = 0x10 then reg32 o (b2n c.go * 2 ^ 31 + c.status * 2 ^ 16 + c.func * 2 ^ 8 + c.queue * 16 + c.op)
  else if o = 0x14 then reg32 o c.ctxArg
  else if o = 0x18 then reg32 o (cutTo 16 c.unreported * 2 ^ 16 + cutTo 16 c.aborted)
  else if o = 0x20 then reg32 o c.event
  else if inArray o 0x28 8 1 then reg64 o c.lostMask
  else if inArray o 0x30 8 1 then reg64 o 0
  else if inArray o 0x40 8 8 then reg64 o (tabGet 0 c.qdesc ((o - 0x40) / 8)).toNat
  else if inArray o 0x1000 8 65 then reg64 o (vdStateReg s ((o - 0x1000) / 8))
  else if inArray o 0x8000 0x1000 6 then doorbellReg s 64 ((o - 0x8000) / 0x1000) (o % 0x1000) o
  else if inArray o 0x10000 8 4096 then fenceReg s 64 ((o - 0x10000) / 8) o
  else none

-- ATL (R287–R292)

/-- ATL_SLICE (R291). -/
def sliceReg (s : State) (k : Nat) : Nat :=
  let x := sliceOf s k
  b2n x.ret * 2 ^ 15 + b2n x.pending * 2 ^ 14 + (if x.ret || x.state == .assigned || x.state == .releasing then x.owner % 64 * 2 ^ 8 else 0) + sliceCode x.state

/-- ATL_VD (R292). -/
def vdReg (s : State) (n x o : Nat) : Option Reg :=
  let v := (partOf s n).vd
  let on (k : Nat) : Nat := if v.used then k else 0
  if x < 8 then reg64 o (on (v.vdid * 2 ^ 32 + v.edition))
  else if x < 0x10 then
    reg64 o (on (v.rank * 2 ^ 24 + b2n v.standby * 2 ^ 23 + b2n (v.store != 0) * 2 ^ 22 + b2n v.front * 2 ^ 21 + b2n v.partnerValid * 2 ^ 20 + v.partner))
  else if x = 0x10 then reg32 o (on (b2n v.scaled * 2 ^ 16 + v.memScale * 2 ^ 8 + v.linkScale))
  else none

def atlReg (s : State) (o : Nat) : Option Reg :=
  let a := s.atl
  if inArray o 0x0 8 1 then reg64 o 0x40201000
  else if o = 0x8 then reg32 o a.event
  else if o = 0x10 then reg32 o (b2n a.go * 2 ^ 31 + a.status * 2 ^ 16 + a.op)
  else if inArray o 0x18 8 1 then reg64 o a.desc
  else if inArray o 0x20 8 1 then reg64 o (a.vdid * 2 ^ 32 + a.local_ * 2 ^ 24 + a.reason * 2 ^ 16 + a.entry)
  -- a part of a 64 KiB unit counts as a unit in use (DESIGN CHOICE, log 79)
  else if inArray o 0x28 8 1 then reg64 o (cutTo 16 ((mirrorUsed s + 0xFFFF) / 0x10000) * 2 ^ 32 + cutTo 16 ((homeUsed s + 0xFFFF) / 0x10000))
  else if inArray o 0x1000 4 472 then reg32 o (sliceReg s ((o - 0x1000) / 4))
  else if inArray o 0x2000 32 64 then vdReg s ((o - 0x2000) / 32) (o % 32) o
  else none

-- SUR (R183–R186)

def surPartReg (s : State) (n x o : Nat) : Option Reg :=
  let p := partOf s n
  let on (k : Nat) : Nat := if p.vd.used then k else 0
  if x < 8 then reg64 o (on (placeable s n))
  else if x < 0x10 then reg64 o (on (freePages s n))
  else if x = 0x10 then reg32 o (on (cutTo 16 (s.sur.faultQ.filter (fun e => e.fn == n + 1)).length * 2 ^ 16 + cutTo 16 p.ranges.length))
  else if x = 0x14 then reg32 o (on (cutTo 32 p.carve.migrated))
  else none

def surReg (s : State) (o : Nat) : Option Reg :=
  let u := s.sur
  if inArray o 0x0 8 1 then reg64 o 0x4000100002000100
  else if o = 0x8 then reg32 o (b2n u.overflow * 2 ^ 31 + cutTo 9 u.waiting.length * 2 ^ 16 + cutTo 9 u.faultQ.length)
  else if o = 0x10 then reg32 o (b2n (u.inv.any (·.go)) * 2 ^ 31 + b2n u.invPort * 2 ^ 9 + b2n u.invAll * 2 ^ 8 + u.invFn)
  else if inArray o 0x1000 32 64 then surPartReg s ((o - 0x1000) / 32) (o % 32) o
  else none

-- STR (R216, R217)

def strPartReg (s : State) (n x o : Nat) : Option Reg :=
  let p := partOf s n
  let on (k : Nat) : Nat := if p.vd.used then k else 0
  let count (t : StreamState → Bool) : Nat := (tabKeys (fun _ y => t y.state) p.str.streams).length
  if x = 0 then reg32 o (on (count (· != .free)))
  else if x = 4 then reg32 o (on (cutTo 16 (count (· == .waitKv)) * 2 ^ 16 + cutTo 16 (count (· == .spilled))))
  else if x = 8 || x = 12 then reg64 o (on p.str.verdicts)
  else none

def strReg (s : State) (o : Nat) : Option Reg :=
  if inArray o 0x0 8 1 then reg64 o (0x1000 * 2 ^ 48 + 0x40000 * 2 ^ 28 + 0x4000 * 2 ^ 12 + 0x10 * 2 ^ 7 + 0x40)
  else if inArray o 0x1000 16 64 then strPartReg s ((o - 0x1000) / 16) (o % 16) o
  else none

-- MEM (R150–R153)

def chanReg (s : State) (g : Nat) : Nat :=
  let c := chanOf s g
  cutTo 16 c.retired.length * 2 ^ 16 + cutTo 8 c.spareTotal * 2 ^ 8 + b2n c.marginFail * 4 + b2n c.retirePending * 2 + b2n c.trained

def memReg (s : State) (o : Nat) : Option Reg :=
  if o = 0 then reg32 o s.patrolH
  else if inArray o 0x1000 4 384 then reg32 o (chanReg s ((o - 0x1000) / 4))
  else if inArray o 0x2000 8 384 then let c := chanOf s ((o - 0x2000) / 8); reg64 o (cutTo 16 c.ue * 2 ^ 32 + cutTo 32 c.ce)
  else if inArray o 0x4000 4 512 then
    let g := granuleOf s ((o - 0x4000) / 4)
    reg32 o (if g.valid then 2 ^ 31 + b2n g.cache * 2 ^ 8 + g.part % 64 else 0)
  else none

-- LNK (R320)

def linkReg (s : State) (k x o : Nat) : Option Reg :=
  let l := linkOf s k
  if x = 0 then reg32 o (l.state * 2 ^ 28 + l.rev * 2 ^ 26 + l.width * 2 ^ 21 + l.reason * 2 ^ 17 + l.bad)
  else if x = 4 then reg32 o (b2n l.retrain * 2 ^ 31 + b2n l.disable * 2 ^ 30 + b2n l.spareOk)
  else if x = 8 || x = 0xC then
    reg64 o (b2n l.peerIdValid * 2 ^ 26 + b2n l.peerValid * 2 ^ 25 + l.peerLink * 2 ^ 20 + (if l.peerIdValid then l.peerId else 0))
  else if x = 0x10 then reg32 o (cutTo 16 l.rtt)
  else if x = 0x18 || x = 0x1C then reg64 o (cutTo 16 l.uncorr * 2 ^ 48 + cutTo 16 l.tagfail * 2 ^ 32 + cutTo 32 l.corr)
  else if x = 0x20 || x = 0x24 then reg64 o (cutTo 32 l.replays * 2 ^ 32 + cutTo 32 l.swaps)
  else if x = 0x28 then reg32 o (b2n l.urg * 2 ^ 31 + occBulk l)
  else none

def lnkReg (s : State) (o : Nat) : Option Reg :=
  let f := s.fab
  if o = 0 then reg32 o 0x18101E00
  else if o = 8 then reg32 o (b2n (f.claiming || s.glb.idValid) * 2 ^ 31 + f.modidReg)
  else if o = 0xC then reg32 o (b2n f.rootValid * 2 ^ 31 + b2n (isRoot s) * 2 ^ 30 + f.rootId)
  else if o = 0x10 then reg32 o f.event
  else if o = 0x14 then reg32 o (b2n f.allowOpen)
  else if inArray o 0x1000 64 24 then linkReg s ((o - 0x1000) / 64) (o % 64) o
  else if inArray o 0x4000 4 512 then reg32 o (tabGet 0 f.rtGroup ((o - 0x4000) / 4)).toNat
  else if inArray o 0x4800 4 512 then reg32 o (tabGet 0 f.rtMember ((o - 0x4800) / 4)).toNat
  else none

-- counters under R372 and R417

/-- What the PF reads of a counter of slice `k`: nothing of a secure virtual device's slice in SECURED; of a slice that is no partition's the value
of the last window while coarsening is in force; else the counter (R372, R417) (DEDUCED, log 82). -/
def shown (s : State) (k live window : Nat) : Nat :=
  let x := sliceOf s k
  if x.state == .assigned || x.state == .releasing then
    (if s.nv.lifecycle == 2 && (partOf s x.owner).vd.secure then 0 else live)
  else if coarse s then window
  else live

-- PWR (R414)

/-- Hops to the time master, by the routing tables (R310, R414). -/
def timeHops (s : State) : Nat :=
  let d := s.fab.rootId
  let e := if d / 512 = s.glb.moduleId / 512 then tabGet 0 s.fab.rtMember (d % 512) else tabGet 0 s.fab.rtGroup (d / 512)
  if isRoot s || !s.fab.rootValid || !e.getLsbD 31 then 0 else bits e.toNat 30 24

/-- PWR_TIME_STATUS (R405, R406, R414). -/
def timeReg (s : State) : Nat :=
  let p := s.pwr
  let off : Int := if p.offset > 32767 then 32767 else if p.offset < -32768 then -32768 else p.offset
  b2n (timeLinked s && (isRoot s || p.aligned)) * 2 ^ 31 + b2n (isRoot s) * 2 ^ 30 + b2n p.stepped * 2 ^ 29 + cutTo 8 (timeHops s) * 2 ^ 16 + wrapNat 16 off

def pwrReg (s : State) (o : Nat) : Option Reg :=
  let p := s.pwr
  let c := coarse s
  if o = 0 then reg32 o 0x0FA005DC
  else if o = 4 then reg32 o (p.pldmW * 2 ^ 16 + p.driverW)
  else if o = 8 then reg32 o p.extW
  else if o = 0xC then reg32 o (cutTo 8 p.junction * 2 ^ 24 + cutTo 8 ((p.stackTs.map (·.2)).foldl Nat.max 0) * 2 ^ 16 + cutTo 8 p.inlet * 2 ^ 8)
  else if inArray o 0x10 8 1 then
    reg64 o (cutTo 16 p.vin * 2 ^ 48 + cutTo 16 (if c then p.coarseIin else p.iin) * 2 ^ 32 + cutTo 13 (if c then p.coarsePin else p.pin))
  else if o = 0x18 then reg32 o (p.reasons % 2 ^ 7)
  else if o = 0x1C then reg32 o (maskOf ((List.range 24).filter (fun k => (linkOf s k).urg)))
  else if inArray o 0x40 8 7 then
    let ns := tabGet 0 p.durations ((o - 0x40) / 8)
    reg64 o (if c then ns / 100000000 * 100000 else ns / 1000)
  else if inArray o 0x80 8 1 then reg64 o p.meridian
  else if o = 0x88 then reg32 o (timeReg s)
  else if inArray o 0x100 4 64 then let x := clusterOf s ((o - 0x100) / 4); reg32 o (x.clkCur * 2 ^ 16 + x.clkTarget)
  else if inArray o 0x200 4 64 then
    let x := clusterOf s ((o - 0x200) / 4)
    reg32 o ((if c then 0 else cutTo 16 x.actW) * 2 ^ 16 + x.limit * 2 ^ 8 + x.rate)
  else if inArray o 0x8000 64 384 then
    let g := (o - 0x8000) / 64
    let j := o % 64 / 8
    reg64 o (shown s (64 + g) (tabGet 0 (chanOf s g).lines j).toNat (tabGet 0 (tabGet [] p.coarseLines g) j).toNat)
  else none

-- OBS (R417, R428)

def traceReg (s : State) (t x o : Nat) : Option Reg :=
  let y := traceOf s t
  if x = 0 then reg32 o y.ctl
  else if x = 8 || x = 0xC then reg64 o y.types.toNat
  else if x = 0x10 || x = 0x14 then reg64 o y.parts.toNat
  else if x = 0x18 || x = 0x1C then reg64 o (y.ring + y.log2)
  else if x = 0x20 then reg32 o y.pidx
  else if x = 0x24 then reg32 o y.cidx
  else if x = 0x28 then reg32 o y.trig
  else if x = 0x2C then reg32 o (y.state * 2 ^ 30 + cutTo 14 y.staged.length * 2 ^ 16 + cutTo 16 y.dropped)
  else if x = 0x30 then reg32 o y.trigpos
  else none

def obsReg (s : State) (o : Nat) : Option Reg :=
  if o = 0 then reg32 o 0x08080000
  else if inArray o 0x1000 64 64 then
    let c := (o - 0x1000) / 64
    let i := o % 64 / 8
    reg64 o (shown s c (tabGet 0 (clusterOf s c).counters i).toNat (tabGet 0 (tabGet [] s.pwr.coarseClu c) i).toNat)
  else if inArray o 0x2000 64 64 then
    let p := partOf s ((o - 0x2000) / 64)
    reg64 o (if !p.vd.used || (s.nv.lifecycle == 2 && p.vd.secure) then 0 else (tabGet 0 p.counters (o % 64 / 8)).toNat)
  else if inArray o 0x3000 8 8 then
    reg64 o (tabGet 0 (if coarse s then s.pwr.coarseCnt else s.modCnt) ((o - 0x3000) / 8)).toNat
  else if inArray o 0x4000 64 8 then traceReg s ((o - 0x4000) / 64) (o % 64) o
  else if inArray o 0x10000 2048 64 then
    let c := (o - 0x10000) / 2048
    let i := (o - 0x10000) % 2048 / 4
    reg32 o (shown s c (tabGet 0 (clusterOf s c).conflict i) (tabGet 0 (tabGet [] s.pwr.coarseConf c) i))
  else none

-- ERR (R396)

/-- Records that wait for ring space (R396). -/
def ringWait (s : State) : Nat := if s.err.ringLog2 = 0 then 0 else Nat.min Config.errBuf (s.nv.rseq - s.err.ringRseq)

def errReg (s : State) (o : Nat) : Option Reg :=
  let e := s.err
  if o = 0 then reg32 o 0x10000400
  else if o = 4 then reg32 o (b2n e.gap * 2 ^ 31 + b2n e.wrap * 2 ^ 30 + b2n e.dumpValid * 2 ^ 29 + b2n e.cidxLog * 2 ^ 28 + ringWait s)
  else if o = 8 then reg32 o s.nv.rseq
  else if inArray o 0x10 8 1 then reg64 o (e.ringBase + e.ringLog2)
  else if o = 0x18 then reg32 o e.pidx
  else if o = 0x1C then reg32 o e.cidx
  else if o = 0x20 then reg32 o e.hangPart
  else if o = 0x24 then reg32 o (cutTo 16 e.declared * 2 ^ 16 + cutTo 16 e.sweepUs)
  else if inArray o 0x28 8 1 then reg64 o (cutTo 32 e.dumpBytes * 2 ^ 32 + e.dumpReason * 2 ^ 24 + b2n e.dumpValid)
  else if inArray o 0x30 8 1 then reg64 o e.dumpDest
  else if inArray o 0x1000 4 64 then
    let p := partOf s ((o - 0x1000) / 4)
    reg32 o (if p.vd.used then p.progress.toNat else 0)
  else if inArray o 0x8000 64 4096 then
    reg32 o (match tabGet none e.buf ((o - 0x8000) / 64) with
      | some r => bytesNat (((recordBytes r false).drop (o % 64)).take 4)
      | none => 0)
  else none

-- SEC (R351, R354, R366, R370)

/-- SEC_STATUS (R354). -/
def secReg0 (s : State) : Nat :=
  let c := s.sec
  s.nv.lifecycle * 2 ^ 30 + b2n c.quarantine * 2 ^ 29 + b2n c.zeroised * 2 ^ 28 + b2n c.slot * 2 ^ 25 + b2n c.fallback * 2 ^ 24 + cutTo 8 s.nv.svnFused * 2 ^ 16 +
  cutTo 8 c.svnRunning * 2 ^ 8 + (tabKeys (fun n p => decide (n < 64) && p.vd.used && p.vd.secure) s.parts).length

/-- SEC_LEGEND (R348, R351): bytes 0–7 and 8–15 of an entry. -/
def legendWord (e : Legend) (hi : Bool) : Nat :=
  if !e.valid then 0
  else if hi then e.limit / 4096 * 4096
  else 2 ^ 60 + 2 ^ 59 + b2n e.world * 2 ^ 58 + b2n e.lock * 2 ^ 57 + e.owner * 2 ^ 50 + e.base / 4096 * 4096 + e.rights

def secReg (s : State) (o : Nat) : Option Reg :=
  let c := s.sec
  if o = 0 then reg32 o (secReg0 s)
  else if inArray o 0x8 8 1 then
    reg64 o (c.lastSource * 2 ^ 56 + c.lastLevel * 2 ^ 48 + cutTo 4 s.nv.a3Count * 2 ^ 44 + cutTo 8 c.a2 * 2 ^ 32 + cutTo 32 c.a1)
  else if o = 0x10 then reg32 o (b2n c.mbxGo * 2 ^ 31 + c.mbxStatus * 2 ^ 16 + c.mbxOp)
  else if inArray o 0x18 8 4 then reg64 o (tabGet 0 c.mbxArg ((o - 0x18) / 8)).toNat
  else if inArray o 0x10000 16 4096 then reg64 o (legendWord (legendOf s ((o - 0x10000) / 16)) (decide (o % 16 ≥ 8)))
  else none

/-- The PF's BAR0. A KILLED module answers in its GLB block and SEC_STATUS alone (R352). -/
def pfReg (s : State) (o : Nat) : Option Reg :=
  let x := o % 0x100000
  let at_ (b : Option Reg) : Option Reg := b.map (fun r => { r with base := r.base + (o - x) })
  match o / 0x100000 with
  | 0 => glbReg s o
  | k =>
    if s.nv.lifecycle = 3 && !(k = 10 && x = 0) then none
    else match k with
      | 1 => at_ (cqReg s x)
      | 2 => at_ (atlReg s x)
      | 3 => at_ (surReg s x)
      | 4 => at_ (strReg s x)
      | 5 => at_ (memReg s x)
      | 6 => at_ (lnkReg s x)
      | 7 => at_ (pwrReg s x)
      | 8 => at_ (obsReg s x)
      | 9 => at_ (errReg s x)
      | 10 => at_ (secReg s x)
      | _ => none

/-- A VF's BAR0 (R224, R236, R239, R255, R325, R418). -/
def vfReg (s : State) (port n o : Nat) : Option Reg :=
  let p := partOf s n
  if s.nv.lifecycle = 3 then none
  else if inArray o 0 0x1000 6 then doorbellReg s n (o / 0x1000) (o % 0x1000) o
  else if o = 0x10000 then reg32 o (p.ctx.cause * 2 ^ 24 + ctxCode p.ctx.state * 2 ^ 20 + p.ctx.tag)
  else if inArray o 0x10008 8 1 then
    reg64 o (p.ctx.lostFault * 2 ^ 40 + b2n p.ctx.lostValid * 2 ^ 35 + p.ctx.lostQueue * 2 ^ 32 + p.ctx.lostSeq % 2 ^ 32)
  else if inArray o 0x10010 8 1 then (if p.vd.front then reg64 o 0 else none)
  else if inArray o 0x18000 8 4096 then fenceReg s n ((o - 0x18000) / 8) o
  else if o = 0x20000 then let m := mbxOf s port n; reg32 o (b2n m.send * 2 ^ 31 + b2n m.reply * 2 ^ 30 + m.len)
  else if inArray o 0x20100 4 64 then reg32 o (bytesNat (tabBytes (mbxOf s port n).req (o - 0x20100) 4))
  else if inArray o 0x20200 4 64 then reg32 o (bytesNat (tabBytes (mbxOf s port n).rep (o - 0x20200) 4))
  else if inArray o 0x30000 8 8 then reg64 o (p.vf.cntSnap.getD ((o - 0x30000) / 8) 0).toNat
  else if inArray o 0x30040 8 1 then reg64 o p.vf.cntTime
  else if o = 0x30048 then reg32 o 0
  else none

/-- The event controller as one target sees it (R434). -/
def evcReg (s : State) (t o : Nat) : Option Reg :=
  let x := evcOf s t
  if o = 0 then reg32 o (maskOf ((List.range 32).filter (privPending x)))
  else if o = 4 then reg32 o x.en
  else if o = 8 then reg32 o 0
  else if inArray o 0x10 8 1 then reg64 o x.prio
  else if o = 0x18 then reg32 o x.claim
  else if o = 0x1C then reg32 o 0
  else if o = 0x20 then reg32 o (x.modUs * 2 ^ 16 + x.modCount)
  else if o = 0x24 then reg32 o 0
  else if inArray o 0x40 4 8 then
    reg32 o (maskOf ((List.range 32).filter (fun i => let y := evsOf s (32 + (o - 0x40) / 4 * 32 + i); sharedPending y && y.target == t)))
  else if inArray o 0x400 4 256 then
    let y := evsOf s (32 + (o - 0x400) / 4)
    reg32 o (b2n y.en * 2 ^ 31 + b2n y.secure * 2 ^ 30 + y.target * 2 ^ 16 + y.prio)
  else none

/-- The register that the word at `o` belongs to; none at an unassigned offset. -/
def regAt (s : State) (v : View) (o : Nat) : Option Reg :=
  match v with
  | .pf _ => pfReg s o
  | .vf port n => vfReg s port n o
  | .evc t => evcReg s t o

/-- The view that an access names: BAR0 of function 0, the PF, or of a VF that the port exposes; or, for `bar` 16 to 21, the event controller as
the targets see it. -/
def viewOf (s : State) (bar func port : Nat) : Option View :=
  if bar = 0 && port < 2 then
    if func = 0 then some (.pf port)
    else if func ≤ 64 then
      let v := (partOf s (func - 1)).vf
      if if port = 0 then v.exposedA else v.exposedB then some (.vf port (func - 1)) else none
    else none
  else if 16 ≤ bar && bar < 22 then some (.evc (bar - 16))
  else none

/-- The key of a view's half-access state, which is kept per function and BAR (R9). -/
def viewKey : View → Nat
  | .pf port => port * 128
  | .vf port n => port * 128 + n + 1
  | .evc t => 256 + t

/-- A TEE range of a locked or running TDI, accessed without the T bit (R334, R335). -/
def teeRefuses (s : State) (v : View) (o : Nat) (tbit : Bool) : Bool :=
  match v with
  | .vf _ n =>
    let t := (partOf s n).vf.tdi
    (t == .locked || t == .run) && !tbit && (decide (o < 0x6000) || inArray o 0x10000 0x10000 1)
  | _ => false

-- half accesses (R9)

def halfOf (s : State) (v : View) : Option HalfReg := tabGet none s.half (viewKey v)
def setHalf (s : State) (v : View) (h : Option HalfReg) : State := { s with half := tabSet none s.half (viewKey v) h }

/-- The half-access state that an access to the register at `base` leaves: another register's is discarded. -/
def halfFor (s : State) (v : View) (base : Nat) : HalfReg :=
  match halfOf s v with
  | some h => if h.offset = base then h else { offset := base, latched := none, heldLow := none }
  | none => { offset := base, latched := none, heldLow := none }

/-- Half-access state, none where nothing is latched or held. -/
def putHalf (s : State) (v : View) (h : HalfReg) : State :=
  setHalf s v (if h.latched.isNone && h.heldLow.isNone then none else some h)

/-- A 32-bit read (R9, R10). A read of EVC_CLAIM claims (R430) (DEDUCED, log 83). -/
def read32 (s : State) (v : View) (o : Nat) : State × Nat :=
  match regAt s v o with
  | none => (s, 0)
  | some r =>
    let h := halfFor s v r.base
    if !r.wide then
      let s := setHalf s v none
      match v with
      | .evc t => if o = 0x18 then let s := outState s (execEvcClaim t s); (s, (evcOf s t).claim) else (s, r.value)
      | _ => (s, r.value)
    else if o = r.base then (putHalf s v { h with latched := some (r.value / 2 ^ 32) }, r.value % 2 ^ 32)
    else match h.latched with
      | some x => (putHalf s v { h with latched := none }, x)
      | none => (putHalf s v h, r.value / 2 ^ 32)

/-- A 64-bit read (R9, R10). -/
def read64 (s : State) (v : View) (o : Nat) : State × Nat :=
  match regAt s v o with
  | some r =>
    if r.wide then (setHalf s v none, r.value)
    else let a := read32 s v o; let b := read32 a.1 v (o + 4); (b.1, a.2 + b.2 * 2 ^ 32)
  | none => let a := read32 s v o; let b := read32 a.1 v (o + 4); (b.1, a.2 + b.2 * 2 ^ 32)

/-- Widths that an access has, in bits. -/
def accessWidth (w : Nat) : Bool := w = 8 || w = 16 || w = 32 || w = 64

/-- An access that completes with Unsupported Request (R10, R335). -/
def accessRefused (s : State) (v : View) (o w : Nat) (tbit : Bool) : Bool :=
  decide (o % (w / 8) ≠ 0) || teeRefuses s v o tbit || (decide (w < 32) && (regAt s v (o / 4 * 4)).isSome)

/-- An answer to a read. -/
def answerRead (s : State) (r : ReadOut) : State := { s with reads := s.reads ++ [r] }

/-- REGISTER_READ (R7–R10, R335) (DEDUCED, log 77). -/
def execRegisterRead (bar func port : Nat) (offset width : Nat) (tbit : Bool) (s : State) : Out :=
  match viewOf s bar func port with
  | none => .next s
  | some v =>
    if !accessWidth width then .next s
    else if accessRefused s v offset width tbit then .next (answerRead s .ur)
    else if width < 32 then .next (answerRead s (.value width 0))
    else
      let r := if width = 32 then read32 s v offset else read64 s v offset
      .next (answerRead r.1 (.value width (BitVec.ofNat 64 r.2)))

end Sys2Proof.Machine
end

