-- ==== Sys2Proof/Machine/RegWrite.lean ====
section
/-! DEFINITION. Register writes: the effect of each writable register and the half-access rules (R7–R10, R29, R150, R184, R185, R221–R225, R239, R253, R254, R288–R290, R313, R319, R320, R325, R326, R328, R332, R337, R344, R352, R366, R378, R390, R396, R399–R401, R414, R418, R424, R425, R428, R431–R434, R453). -/

namespace Sys2Proof.Machine

/-- Bits of `old` that a write of ones does not clear (RW1C of R7). -/
def clearOnes (old ones : Nat) : Nat := old ^^^ (old &&& ones)

-- GLB

/-- GLB_VF_PORT (R328, R332): a SWITCH asked for stands until it is made or refused. -/
def writeVfPort (s : State) (n v : Nat) : State :=
  if !(partOf s n).vd.used then s
  else modVf s n (fun x => { x with
    switchReq := x.switchReq || bitOf v 31, refused := x.refused && !bitOf v 10, failedOver := x.failedOver && !bitOf v 9 })

/-- GLB_MIG_CTL (R337, R453). -/
def writeMigCtl (s : State) (v : Nat) : State :=
  let op := bits v 11 8
  if s.glb.migGo then s
  else
    let s := { s with glb := { s.glb with migOp := op, migPart := bits v 5 0 } }
    if !bitOf v 31 then s
    else if op = 0 || op > 5 then { s with glb := { s.glb with migStatus := sBadPacket } }
    else { s with glb := { s.glb with migGo := true } }

/-- A store that a virtual device names: its registers are locked (R344). -/
def storeNamed (s : State) (h : Nat) : Bool := s.parts.any (fun x => x.2.vd.used && x.2.vd.store == h + 1)

/-- The RW fields of register `i` of a GLB_STORE (R344). -/
def storeFields (i v : Nat) : Nat :=
  match i with
  | 0 => v / 4096 * 4096 + v % 16
  | 1 => v / 4096 * 4096
  | 2 | 3 => v / 4 * 4
  | 4 => bits v 63 63 * 2 ^ 63 + v % 2 ^ 40
  | _ => v

def modMbx (s : State) (port n : Nat) (f : Mbx → Mbx) : State := { s with glb := { s.glb with mbx := tabMod {} s.glb.mbx (64 * port + n) f } }

def glbWrite (s : State) (o v : Nat) : State :=
  if inArray o 0x1100 4 64 then writeVfPort s ((o - 0x1100) / 4) v
  else if o = 0x1200 then writeMigCtl s v
  else if o = 0x1310 then outState s (execGlbMbxDone (bits v 6 6) (bits v 5 0) s)
  else if inArray o 0x2000 0x8000 2 then
    let x := (o - 0x2000) % 512
    if x < 0x100 then s
    else modMbx s ((o - 0x2000) / 0x8000) ((o - 0x2000) % 0x8000 / 512) (fun m => { m with rep := tabPut m.rep (x - 0x100) (natBytes 4 v) })
  else s

def glbWriteWide (s : State) (o v : Nat) : State :=
  let g := s.glb
  if o = 0x1208 then { s with glb := { g with migImage := v / 4096 * 4096 } }
  else if o = 0x1210 then { s with glb := { g with migLen := v % 2 ^ 40 } }
  else if inArray o 0x1300 8 2 then
    { s with glb := { g with pend := tabMod 0 g.pend ((o - 0x1300) / 8) (fun x => BitVec.ofNat 64 (clearOnes x.toNat v)) } }
  else if inArray o 0x1400 64 16 then
    (if storeNamed s ((o - 0x1400) / 64) then s
     else { s with glb := { g with store := tabSet 0 g.store ((o - 0x1400) / 8) (BitVec.ofNat 64 (storeFields ((o - 0x1400) % 64 / 8) v)) } })
  else s

-- CQ

/-- CQ_CTL (R253, R453). -/
def writeCqCtl (s : State) (v : Nat) : State :=
  let op := bits v 3 0
  let queue := bits v 6 4
  let func := bits v 14 8
  if s.cq.go then s
  else
    let s := { s with cq := { s.cq with op, queue, func } }
    if !bitOf v 31 then s
    else if op = 0 || op > 4 || queue > 5 || func > 64 then { s with cq := { s.cq with status := sBadPacket } }
    else { s with cq := { s.cq with go := true } }

/-- A doorbell page (R221, R223, R224). -/
def doorbellWrite (s : State) (f q port x v : Nat) : State :=
  if x = 0 then outState s (execSqTailWrite f q port (BitVec.ofNat 32 v) s)
  else if x = 4 then outState s (execCqHeadWrite f q port (BitVec.ofNat 32 v) s)
  else s

def cqWrite (s : State) (port o v : Nat) : State :=
  let c := s.cq
  if o = 0x10 then writeCqCtl s v
  else if o = 0x14 then { s with cq := { c with ctxArg := v % 2 ^ 16 } }
  else if o = 0x20 then { s with cq := { c with event := clearOnes c.event v } }
  else if inArray o 0x8000 0x1000 6 then doorbellWrite s 64 ((o - 0x8000) / 0x1000) port (o % 0x1000) v
  else s

def cqWriteWide (s : State) (o v : Nat) : State :=
  let c := s.cq
  if o = 0x28 then { s with cq := { c with lostMask := clearOnes c.lostMask v } }
  else if o = 0x30 then outState s (execFenceSignal 64 (BitVec.ofNat 64 v) s)
  else if inArray o 0x40 8 8 then { s with cq := { c with qdesc := tabSet 0 c.qdesc ((o - 0x40) / 8) (BitVec.ofNat 64 v) } }
  else s

-- ATL, SUR, MEM

/-- ATL_CTL (R289, R453). -/
def writeAtlCtl (s : State) (v : Nat) : State :=
  let op := bits v 3 0
  if s.atl.go then s
  else
    let s := { s with atl := { s.atl with op } }
    if !bitOf v 31 then s
    else if op = 0 || op > 5 then { s with atl := { s.atl with status := sBadPacket } }
    else { s with atl := { s.atl with go := true } }

def atlWrite (s : State) (o v : Nat) : State :=
  if o = 0x8 then { s with atl := { s.atl with event := clearOnes s.atl.event v } }
  else if o = 0x10 then writeAtlCtl s v
  else s

def atlWriteWide (s : State) (o v : Nat) : State :=
  if o = 0x18 then { s with atl := { s.atl with desc := v / 64 * 64 } } else s

def surWrite (s : State) (o v : Nat) : State :=
  if o = 0x8 then { s with sur := { s.sur with overflow := s.sur.overflow && !bitOf v 31 } }
  else if o = 0x10 then
    (if bitOf v 31 then outState s (execSurAtcInv (bits v 9 9) (bitOf v 8) (bits v 6 0) s)
     else { s with sur := { s.sur with invPort := bitOf v 9, invAll := bitOf v 8, invFn := bits v 6 0 } })
  else s

/-- A value limited to a field's bounds (R150, R399, R414). -/
def limited (lo hi v : Nat) : Nat := Nat.max lo (Nat.min hi v)

def patrolWrite (s : State) (o v : Nat) : State := if o = 0 then { s with patrolH := limited 1 24 (bits v 7 0) } else s

-- LNK

/-- LNK_CTL (R297, R319, R320): a link that is a slice of a partition is not disabled. A link no longer held is DOWN until it trains (DESIGN CHOICE,
log 80). -/
def writeLinkCtl (s : State) (k v : Nat) : State :=
  let l := linkOf s k
  if bitOf v 30 && !l.disable && (sliceOf s (448 + k)).state = .assigned then { s with fab := { s.fab with event := s.fab.event ||| 16 } }
  else
    let s := if bitOf v 30 = l.disable then s
      else if l.disable then setLink (modLink s k (fun l => { l with disable := false })) k 0 0
      else setLink (modLink s k (fun l => { l with disable := true, retrain := false })) k 5 0
    if bitOf v 31 then outState s (execRetrain k s) else s

def lnkWrite (s : State) (o v : Nat) : State :=
  if o = 8 then outState s (execLnkModidWrite (BitVec.ofNat 32 v) s)
  else if o = 0x10 then { s with fab := { s.fab with event := clearOnes s.fab.event v } }
  else if inArray o 0x1000 64 24 && (o - 0x1000) % 64 = 4 then writeLinkCtl s ((o - 0x1000) / 64) v
  else s

-- PWR

/-- PWR_CLK.TARGET_MHZ (R29, R401, R414): a cluster whose clock stood at its target follows it; one that is held below follows it only downward
(DEDUCED, log 78). -/
def writeClock (s : State) (c v : Nat) : State :=
  let t := limited 600 2100 (bits v 11 0) / 25 * 25
  let x := clusterOf s c
  let f := if clockDue x = x.clkTarget then t else Nat.min (clockDue x) t
  capReasons (setClock (modCluster s c (fun y => { y with clkTarget := t })) c f)

/-- PWR_ISSUE.LIMIT (R400, R414): the rate in force is at most the limit. -/
def writeIssue (s : State) (c v : Nat) : State :=
  let m := limited 8 64 (bits v 14 8)
  capReasons (modCluster s c (fun y => { y with limit := m, rate := Nat.min y.rate m, drooping := y.drooping.map (Nat.min m) }))

def pwrWrite (s : State) (o v : Nat) : State :=
  if o = 4 then capReasons { s with pwr := { s.pwr with driverW := limited 1500 4000 (bits v 12 0) } }
  else if o = 8 then capReasons { s with pwr := { s.pwr with extW := limited 1500 4000 (bits v 12 0) } }
  else if o = 0x88 then { s with pwr := { s.pwr with stepped := s.pwr.stepped && !bitOf v 29 } }
  else if inArray o 0x100 4 64 then writeClock s ((o - 0x100) / 4) v
  else if inArray o 0x200 4 64 then writeIssue s ((o - 0x200) / 4) v
  else s

-- OBS

/-- TRC_TRIG (R425, R428). -/
def writeTrig (s : State) (t v : Nat) : State :=
  let s := modTrace s t (fun y => { y with trig := bits v 30 28 * 2 ^ 28 + bits v 23 13 * 2 ^ 13 })
  if bitOf v 31 then outState s (execTraceTrigger t 4 s) else s

/-- TRC_CIDX (R424): ring space is freed and staged records enter. -/
def writeTrcCidx (s : State) (t v : Nat) : State :=
  let s := modTrace s t (fun y => { y with cidx := v })
  if (traceOf s t).state = 0 || (traceOf s t).state = 3 then s else traceDrain t (traceOf s t).staged.length s

def obsWrite (s : State) (o v : Nat) : State :=
  let t := (o - 0x4000) / 64
  let x := (o - 0x4000) % 64
  if !inArray o 0x4000 64 8 then s
  else if x = 0 then outState s (execTrcCtlEnable t (BitVec.ofNat 32 v) s)
  else if x = 0x24 then writeTrcCidx s t v
  else if x = 0x28 then writeTrig s t v
  else s

def obsWriteWide (s : State) (o v : Nat) : State :=
  let t := (o - 0x4000) / 64
  let x := (o - 0x4000) % 64
  if !inArray o 0x4000 64 8 then s
  else if x = 8 then modTrace s t (fun y => { y with types := BitVec.ofNat 64 v })
  else if x = 0x10 then modTrace s t (fun y => { y with parts := BitVec.ofNat 64 v })
  else if x = 0x18 then modTrace s t (fun y => { y with ring := v / 4096 * 4096, log2 := bits v 4 0 })
  else s

-- ERR

/-- ERR_RING_BASE (R396): a LOG2 other than 0 and 8 to 16 is ignored. A ring that is enabled takes the records written from then on (DEDUCED, log 85). -/
def writeRingBase (s : State) (v : Nat) : State :=
  let g := bits v 4 0
  let g := if g = 0 || (8 ≤ g && g ≤ 16) then g else s.err.ringLog2
  { s with err := { s.err with
    ringBase := v / 4096 * 4096, ringLog2 := g, ringRseq := if s.err.ringLog2 = 0 then s.nv.rseq else s.err.ringRseq } }

def errWrite (s : State) (o v : Nat) : State :=
  let e := s.err
  if o = 4 then { s with err := { e with gap := e.gap && !bitOf v 31, wrap := e.wrap && !bitOf v 30, cidxLog := e.cidxLog && !bitOf v 28 } }
  else if o = 0x1C then outState s (execErrRingCidxWrite (BitVec.ofNat 32 v) s)
  else if o = 0x20 then
    (if bitOf v 31 then outState s (execErrHang (bits v 5 0) s) else { s with err := { e with hangPart := bits v 5 0 } })
  else s

/-- The writes of ERR_RING_BASE, ERR_DUMP and ERR_DUMP_DEST (R390, R396). -/
def errWriteWide (s : State) (o v : Nat) : State :=
  let e := s.err
  if o = 0x10 then writeRingBase s v
  else if o = 0x28 then { s with err := { e with dumpValid := e.dumpValid && !bitOf v 0 } }
  else if o = 0x30 then
    (if bitOf v 0 then outState s (execErrDumpDest (BitVec.ofNat 64 v) s) else { s with err := { e with dumpDest := v / 4096 * 4096 } })
  else s

-- SEC

/-- SEC_MBX_CTL (R366, R453) (DEDUCED, log 84). -/
def writeMbxCtl (s : State) (v : Nat) : State :=
  let op := bits v 3 0
  if s.sec.mbxGo then s
  else
    let s := { s with sec := { s.sec with mbxOp := op } }
    if !bitOf v 31 then s
    else if op = 0 || op > 4 then { s with sec := { s.sec with mbxStatus := sBadPacket } }
    else { s with sec := { s.sec with mbxGo := true } }

def secWrite (s : State) (o v : Nat) : State := if o = 0x10 then writeMbxCtl s v else s

def secWriteWide (s : State) (o v : Nat) : State :=
  if inArray o 0x18 8 4 && !s.sec.mbxGo then { s with sec := { s.sec with mbxArg := tabSet 0 s.sec.mbxArg ((o - 0x18) / 8) (BitVec.ofNat 64 v) } }
  else s

-- the views

def pfWrite (s : State) (port o v : Nat) : State :=
  let x := o % 0x100000
  match o / 0x100000 with
  | 0 => glbWrite s o v
  | 1 => cqWrite s port x v
  | 2 => atlWrite s x v
  | 3 => surWrite s x v
  | 5 => patrolWrite s x v
  | 6 => lnkWrite s x v
  | 7 => pwrWrite s x v
  | 8 => obsWrite s x v
  | 9 => errWrite s x v
  | 10 => secWrite s x v
  | _ => s

def pfWriteWide (s : State) (o v : Nat) : State :=
  let x := o % 0x100000
  match o / 0x100000 with
  | 0 => glbWriteWide s o v
  | 1 => cqWriteWide s x v
  | 2 => atlWriteWide s x v
  | 8 => obsWriteWide s x v
  | 9 => errWriteWide s x v
  | 10 => secWriteWide s x v
  | _ => s

/-- VF_MBX_CTL (R325): REPLY is cleared by a 1; LEN; SEND posts the request. -/
def writeVfMbx (s : State) (port n v : Nat) : State :=
  let s := modMbx s port n (fun m => { m with reply := m.reply && !bitOf v 30, len := bits v 8 0 })
  if bitOf v 31 then outState s (execVfMbxSend port n (bits v 8 0) s) else s

def vfWrite (s : State) (port n o v : Nat) : State :=
  if o < 0x6000 then doorbellWrite s n (o / 0x1000) port (o % 0x1000) v
  else if o = 0x20000 then writeVfMbx s port n v
  else if inArray o 0x20100 4 64 then
    modMbx s port n (fun m => if m.send then m else { m with req := tabPut m.req (o - 0x20100) (natBytes 4 v) })
  else if o = 0x30048 then outState s (execVfCntSnap n s)
  else s

def vfWriteWide (s : State) (n o v : Nat) : State :=
  if o = 0x10010 then outState s (execFenceSignal n (BitVec.ofNat 64 v) s) else s

/-- The event controller's registers (R430–R434). -/
def evcWrite (s : State) (t o v : Nat) : State :=
  if o = 4 then evcLine (modEvc s t (fun x => { x with en := v })) t
  else if o = 8 then outState s (execEvcPrivSet t (BitVec.ofNat 32 v) s)
  else if o = 0x1C then outState s (execEvcEoi t (bits v 8 0) s)
  else if o = 0x20 then evcLine (modEvc s t (fun x => { x with modUs := bits v 31 16, modCount := bits v 7 0 })) t
  else if o = 0x24 then outState s (execEvcShSet t (bits v 8 0) s)
  else if inArray o 0x400 4 256 then outState s (execEvcShRouteWrite t (32 + (o - 0x400) / 4) (BitVec.ofNat 32 v) s)
  else s

def evcWriteWide (s : State) (t o v : Nat) : State :=
  if o = 0x10 then evcLine (modEvc s t (fun x => { x with prio := v })) t else s

/-- The effect of a write to the 32-bit register at `o`. -/
def writeReg (s : State) (w : View) (o v : Nat) : State :=
  match w with
  | .pf port => pfWrite s port o v
  | .vf port n => vfWrite s port n o v
  | .evc t => evcWrite s t o v

/-- The effect of a write to the 64-bit register at `o`. -/
def writeWide (s : State) (w : View) (o v : Nat) : State :=
  match w with
  | .pf _ => pfWriteWide s o v
  | .vf _ n => vfWriteWide s n o v
  | .evc t => evcWriteWide s t o v

/-- A register with WO fields: FENCE_SIGNAL (R9, R239). -/
def isWo (w : View) (o : Nat) : Bool :=
  match w with
  | .pf _ => o = 0x100030
  | .vf _ _ => o = 0x10010
  | .evc _ => false

/-- What a write of the high half alone puts in the low half: what stands there, and zeros where a 1 acts (R9). -/
def lowKept (w : View) (r : Reg) : Nat :=
  match w with
  | .pf _ => if r.base = 0x100028 || inArray r.base 0x1300 8 2 || r.base = 0x900028 then 0 else r.value % 2 ^ 32
  | _ => r.value % 2 ^ 32

/-- A 32-bit write (R9, R10). -/
def write32 (s : State) (w : View) (o v : Nat) : State :=
  match regAt s w o with
  | none => s
  | some r =>
    let h := halfFor s w r.base
    if !r.wide then writeReg (setHalf s w none) w o v
    else if o = r.base then putHalf s w { h with heldLow := some v }
    else match h.heldLow with
      | some lo => writeWide (putHalf s w { h with heldLow := none }) w r.base (v * 2 ^ 32 + lo)
      | none => if isWo w r.base then putHalf s w h else writeWide (putHalf s w h) w r.base (v * 2 ^ 32 + lowKept w r)

/-- A 64-bit write (R9, R10). -/
def write64 (s : State) (w : View) (o v : Nat) : State :=
  let halves := write32 (write32 s w o (v % 2 ^ 32)) w (o + 4) (v / 2 ^ 32)
  match regAt s w o with
  | some r => if r.wide then writeWide (setHalf s w none) w o v else halves
  | none => halves

/-- REGISTER_WRITE (R7–R10, R335). -/
def execRegisterWrite (bar func port : Nat) (offset width : Nat) (value : W64) (tbit : Bool) (s : State) : Out :=
  match viewOf s bar func port with
  | none => .next s
  | some w =>
    if !accessWidth width || accessRefused s w offset width tbit || width < 32 then .next s
    else if width = 32 then .next (write32 s w offset (value.toNat % 2 ^ 32))
    else .next (write64 s w offset value.toNat)

end Sys2Proof.Machine
end

