-- ==== Sys2Proof/Machine/Scalar.lean ====
section
/-! DEFINITION. Scalar instructions of the core: arithmetic, immediates, branches, special registers, TIME, YIELD, END (R70, R71, R64, R83, R84). -/

namespace Sys2Proof.Machine

/-- An ALU instruction (R70, R71): the pred field must be zero; rd receives `f ra rb`. -/
def aluOp (c func : Nat) (rd ra rb : BitVec 5) (pred : BitVec 3) (f : W64 → W64 → W64) (s : State) : State :=
  issue s c (wordT 1 rd ra rb (BitVec.ofNat 8 func) pred) (pred == 0) (fun k =>
    .ok (nextPc (sWrite k rd.toNat (f (sRead k ra.toNat) (sRead k rb.toNat)))))

/-- The shift amount is ra[5:0] (R71) and the value shifted is rb: DEDUCED, log 16. -/
def shiftAmount (a : W64) : Nat := a.toNat % 64

/-- Signed division: by zero all ones, wrapping (R71); the quotient is truncated toward zero (DESIGN CHOICE, log 149). -/
def divide (a b : W64) : W64 := if b = 0 then BitVec.allOnes 64 else a.sdiv b
/-- Signed remainder: by zero the dividend (R71); it has the sign of the dividend (DESIGN CHOICE, log 149). -/
def remainder (a b : W64) : W64 := if b = 0 then a else a.srem b
/-- High half of the signed 128-bit product. -/
def mulHigh (a b : W64) : W64 := ((a.signExtend 128 * b.signExtend 128) >>> 64).setWidth 64
def boolWord (b : Bool) : W64 := if b then 1 else 0

/-- ADD (func 0) (R71). -/
def execAdd (c : Nat) (rd ra rb : BitVec 5) (pred : BitVec 3) (s : State) : Out :=
  .next (aluOp c 0 rd ra rb pred (fun a b => a + b) s)
/-- SUB (func 1) (R71). -/
def execSub (c : Nat) (rd ra rb : BitVec 5) (pred : BitVec 3) (s : State) : Out :=
  .next (aluOp c 1 rd ra rb pred (fun a b => a - b) s)
/-- AND (func 2) (R70). -/
def execAnd (c : Nat) (rd ra rb : BitVec 5) (pred : BitVec 3) (s : State) : Out :=
  .next (aluOp c 2 rd ra rb pred (fun a b => a &&& b) s)
/-- OR (func 3) (R70). -/
def execOr (c : Nat) (rd ra rb : BitVec 5) (pred : BitVec 3) (s : State) : Out :=
  .next (aluOp c 3 rd ra rb pred (fun a b => a ||| b) s)
/-- XOR (func 4) (R70). -/
def execXor (c : Nat) (rd ra rb : BitVec 5) (pred : BitVec 3) (s : State) : Out :=
  .next (aluOp c 4 rd ra rb pred (fun a b => a ^^^ b) s)
/-- SHL (func 5) (R71). -/
def execShl (c : Nat) (rd ra rb : BitVec 5) (pred : BitVec 3) (s : State) : Out :=
  .next (aluOp c 5 rd ra rb pred (fun a b => b <<< shiftAmount a) s)
/-- SHR (func 6) (R71). -/
def execShr (c : Nat) (rd ra rb : BitVec 5) (pred : BitVec 3) (s : State) : Out :=
  .next (aluOp c 6 rd ra rb pred (fun a b => b >>> shiftAmount a) s)
/-- SRA (func 7) (R71). -/
def execSra (c : Nat) (rd ra rb : BitVec 5) (pred : BitVec 3) (s : State) : Out :=
  .next (aluOp c 7 rd ra rb pred (fun a b => b.sshiftRight (shiftAmount a)) s)
/-- MUL (func 8) (R71). -/
def execMul (c : Nat) (rd ra rb : BitVec 5) (pred : BitVec 3) (s : State) : Out :=
  .next (aluOp c 8 rd ra rb pred (fun a b => a * b) s)
/-- MULH (func 9) (R71). -/
def execMulh (c : Nat) (rd ra rb : BitVec 5) (pred : BitVec 3) (s : State) : Out :=
  .next (aluOp c 9 rd ra rb pred (fun a b => mulHigh a b) s)
/-- DIV (func 10) (R71). -/
def execDiv (c : Nat) (rd ra rb : BitVec 5) (pred : BitVec 3) (s : State) : Out :=
  .next (aluOp c 10 rd ra rb pred (fun a b => divide a b) s)
/-- REM (func 11) (R71). -/
def execRem (c : Nat) (rd ra rb : BitVec 5) (pred : BitVec 3) (s : State) : Out :=
  .next (aluOp c 11 rd ra rb pred (fun a b => remainder a b) s)
/-- SLT (func 12) (R70). -/
def execSlt (c : Nat) (rd ra rb : BitVec 5) (pred : BitVec 3) (s : State) : Out :=
  .next (aluOp c 12 rd ra rb pred (fun a b => boolWord (a.slt b)) s)
/-- SLTU (func 13) (R70). -/
def execSltu (c : Nat) (rd ra rb : BitVec 5) (pred : BitVec 3) (s : State) : Out :=
  .next (aluOp c 13 rd ra rb pred (fun a b => boolWord (a.ult b)) s)
/-- MIN (func 14) (R70). -/
def execMin (c : Nat) (rd ra rb : BitVec 5) (pred : BitVec 3) (s : State) : Out :=
  .next (aluOp c 14 rd ra rb pred (fun a b => if a.slt b then a else b) s)
/-- MAX (func 15) (R70). -/
def execMax (c : Nat) (rd ra rb : BitVec 5) (pred : BitVec 3) (s : State) : Out :=
  .next (aluOp c 15 rd ra rb pred (fun a b => if a.slt b then b else a) s)

/-- An immediate instruction (R70): imm16 is signed. -/
def immOp (c major : Nat) (rd ra : BitVec 5) (imm : BitVec 16) (f : W64 → W64 → W64) (s : State) : State :=
  issue s c (wordI major rd ra imm) true (fun k =>
    .ok (nextPc (sWrite k rd.toNat (f (sRead k ra.toNat) (imm.signExtend 64)))))

/-- ADDI (R70). -/
def execAddi (c : Nat) (rd ra : BitVec 5) (imm : BitVec 16) (s : State) : Out := .next (immOp c 2 rd ra imm (fun a i => a + i) s)
/-- LUI: imm16 << 16, sign-extended (R70). -/
def execLui (c : Nat) (rd ra : BitVec 5) (imm : BitVec 16) (s : State) : Out := .next (immOp c 3 rd ra imm (fun _ i => i <<< 16) s)
/-- ANDI (R70). -/
def execAndi (c : Nat) (rd ra : BitVec 5) (imm : BitVec 16) (s : State) : Out := .next (immOp c 4 rd ra imm (fun a i => a &&& i) s)
/-- ORI (R70). -/
def execOri (c : Nat) (rd ra : BitVec 5) (imm : BitVec 16) (s : State) : Out := .next (immOp c 5 rd ra imm (fun a i => a ||| i) s)
/-- SLTI (R70). -/
def execSlti (c : Nat) (rd ra : BitVec 5) (imm : BitVec 16) (s : State) : Out := .next (immOp c 6 rd ra imm (fun a i => boolWord (a.slt i)) s)

/-- A branch (R70): signed compare of ra with rb; the target is PC + offset16. -/
def branchOp (c major : Nat) (ra rb : BitVec 5) (off : BitVec 16) (t : W64 → W64 → Bool) (s : State) : State :=
  issue s c (wordI major ra rb off) true (fun k =>
    .ok (if t (sRead k ra.toNat) (sRead k rb.toNat) then { k with pc := k.pc + off.toInt } else nextPc k))

/-- BEQ (R70). -/
def execBeq (c : Nat) (ra rb : BitVec 5) (off : BitVec 16) (s : State) : Out := .next (branchOp c 8 ra rb off (fun a b => a == b) s)
/-- BNE (R70). -/
def execBne (c : Nat) (ra rb : BitVec 5) (off : BitVec 16) (s : State) : Out := .next (branchOp c 9 ra rb off (fun a b => a != b) s)
/-- BLT (R70). -/
def execBlt (c : Nat) (ra rb : BitVec 5) (off : BitVec 16) (s : State) : Out := .next (branchOp c 10 ra rb off (fun a b => a.slt b) s)
/-- BGE (R70). -/
def execBge (c : Nat) (ra rb : BitVec 5) (off : BitVec 16) (s : State) : Out := .next (branchOp c 11 ra rb off (fun a b => !a.slt b) s)

/-- JAL (R70): s31 ← PC + 1; PC ← PC + offset26. -/
def execJal (c : Nat) (off : BitVec 26) (s : State) : Out :=
  .next (issue s c (wordJ 12 off) true (fun k =>
    .ok { sWrite k 31 (BitVec.ofInt 64 (k.pc + 1)) with pc := k.pc + off.toInt }))

/-- JR (R70): PC ← ra[12:0]. Its unused fields must be zero (DEDUCED, log 17). -/
def execJr (c : Nat) (rd ra rb : BitVec 5) (func : BitVec 8) (pred : BitVec 3) (s : State) : Out :=
  .next (issue s c (wordT 13 rd ra rb func pred) (rd == 0 && rb == 0 && func == 0 && pred == 0) (fun k =>
    .ok { k with pc := ((sRead k ra.toNat).toNat % 2 ^ 13 : Nat) }))

/-- The special register number of MFS and MTS is imm16[11:0]; the bits above it must be zero (R64, R70; DEDUCED, log 17). -/
def specialNumber (imm : BitVec 16) : Nat := imm.toNat % 4096
def specialLegal (k : Core) (imm : BitVec 16) : Bool := decide (imm.toNat < 4096) && (specialRead k (specialNumber imm)).isSome

/-- MFS: rd ← special register (R64). -/
def execMfs (c : Nat) (rd ra : BitVec 5) (imm : BitVec 16) (s : State) : Out :=
  .next (issue s c (wordI 58 rd ra imm) (specialLegal (coreOf s c) imm) (fun k =>
    .ok (nextPc (sWrite k rd.toNat (BitVec.ofNat 64 ((specialRead k (specialNumber imm)).getD 0))))))

/-- MTS: special register ← ra (R64). -/
def execMts (c : Nat) (rd ra : BitVec 5) (imm : BitVec 16) (s : State) : Out :=
  .next (issue s c (wordI 59 rd ra imm) (specialLegal (coreOf s c) imm) (fun k =>
    .ok (nextPc ((specialWrite k (specialNumber imm) (sRead k ra.toNat).toNat).getD k))))

/-- What TIME answers: the module's Meridian count within ±5 ns (R29, log 137). -/
def timeRead (s : State) (c : Nat) : W64 :=
  BitVec.ofInt 64 ((s.pwr.meridian : Int) + ((Config.timeError c s.pwr.meridian % 11 : Nat) : Int) - 5)

/-- TIME (R70, R29): rd ← the module's Meridian count. Its unused fields must be zero (DEDUCED, log 17). -/
def execTime (c : Nat) (rd ra rb : BitVec 5) (func : BitVec 8) (pred : BitVec 3) (s : State) : Out :=
  .next (issue s c (wordT 56 rd ra rb func pred) (ra == 0 && rb == 0 && func == 0 && pred == 0) (fun k =>
    .ok (nextPc (sWrite k rd.toNat (timeRead s c)))))

/-- YIELD (R84): CLIVE is set from ra when ra is not s0; a pending pre-emption is taken. -/
def execYieldTask (c : Nat) (rd ra rb : BitVec 5) (func : BitVec 8) (pred : BitVec 3) (s : State) : Out :=
  .next (issue s c (wordT 57 rd ra rb func pred) (rd == 0 && rb == 0 && func == 0 && pred == 0) (fun k =>
    let k := nextPc (if ra = 0 then k else { k with clive := cliveOf (sRead k ra.toNat).toNat })
    .ok (if k.preemptReq then { k with mode := .draining, cause := 1 } else k)))

end Sys2Proof.Machine
end

