-- ==== Sys2Proof/Machine/Dispatch.lean ====
section
/-! DEFINITION. The meaning of every command, by constructor (rows of the table of commands). -/

namespace Sys2Proof.Machine

def exec (i : Instr) (s : State) : Host.Outcome State Fault Refusal :=
  match i with
  | .add c rd ra rb pred => Sys2Proof.Machine.execAdd c rd ra rb pred s
  | .sub c rd ra rb pred => Sys2Proof.Machine.execSub c rd ra rb pred s
  | .and c rd ra rb pred => Sys2Proof.Machine.execAnd c rd ra rb pred s
  | .or c rd ra rb pred => Sys2Proof.Machine.execOr c rd ra rb pred s
  | .xor c rd ra rb pred => Sys2Proof.Machine.execXor c rd ra rb pred s
  | .shl c rd ra rb pred => Sys2Proof.Machine.execShl c rd ra rb pred s
  | .shr c rd ra rb pred => Sys2Proof.Machine.execShr c rd ra rb pred s
  | .sra c rd ra rb pred => Sys2Proof.Machine.execSra c rd ra rb pred s
  | .mul c rd ra rb pred => Sys2Proof.Machine.execMul c rd ra rb pred s
  | .mulh c rd ra rb pred => Sys2Proof.Machine.execMulh c rd ra rb pred s
  | .div c rd ra rb pred => Sys2Proof.Machine.execDiv c rd ra rb pred s
  | .rem c rd ra rb pred => Sys2Proof.Machine.execRem c rd ra rb pred s
  | .slt c rd ra rb pred => Sys2Proof.Machine.execSlt c rd ra rb pred s
  | .sltu c rd ra rb pred => Sys2Proof.Machine.execSltu c rd ra rb pred s
  | .min c rd ra rb pred => Sys2Proof.Machine.execMin c rd ra rb pred s
  | .max c rd ra rb pred => Sys2Proof.Machine.execMax c rd ra rb pred s
  | .addi c rd ra imm => Sys2Proof.Machine.execAddi c rd ra imm s
  | .lui c rd ra imm => Sys2Proof.Machine.execLui c rd ra imm s
  | .andi c rd ra imm => Sys2Proof.Machine.execAndi c rd ra imm s
  | .ori c rd ra imm => Sys2Proof.Machine.execOri c rd ra imm s
  | .slti c rd ra imm => Sys2Proof.Machine.execSlti c rd ra imm s
  | .beq c ra rb off => Sys2Proof.Machine.execBeq c ra rb off s
  | .bne c ra rb off => Sys2Proof.Machine.execBne c ra rb off s
  | .blt c ra rb off => Sys2Proof.Machine.execBlt c ra rb off s
  | .bge c ra rb off => Sys2Proof.Machine.execBge c ra rb off s
  | .jal c off => Sys2Proof.Machine.execJal c off s
  | .jr c rd ra rb func pred => Sys2Proof.Machine.execJr c rd ra rb func pred s
  | .endTask c rsv => Sys2Proof.Machine.execEndTask c rsv s
  | .ld c rd base off size => Sys2Proof.Machine.execLd c rd base off size s
  | .ldu c rd base off size => Sys2Proof.Machine.execLdu c rd base off size s
  | .st c rd base off size => Sys2Proof.Machine.execSt c rd base off size s
  | .vld c vd base off pred => Sys2Proof.Machine.execVld c vd base off pred s
  | .vst c vd base off pred => Sys2Proof.Machine.execVst c vd base off pred s
  | .vadd c vd va vb ty pred => Sys2Proof.Machine.execVadd c vd va vb ty pred s
  | .vsub c vd va vb ty pred => Sys2Proof.Machine.execVsub c vd va vb ty pred s
  | .vmul c vd va vb ty pred => Sys2Proof.Machine.execVmul c vd va vb ty pred s
  | .vfma c vd va vb ty pred => Sys2Proof.Machine.execVfma c vd va vb ty pred s
  | .vmax c vd va vb ty pred => Sys2Proof.Machine.execVmax c vd va vb ty pred s
  | .vmin c vd va vb ty pred => Sys2Proof.Machine.execVmin c vd va vb ty pred s
  | .vabs c vd va vb ty pred => Sys2Proof.Machine.execVabs c vd va vb ty pred s
  | .vneg c vd va vb ty pred => Sys2Proof.Machine.execVneg c vd va vb ty pred s
  | .vexp c vd va vb ty pred => Sys2Proof.Machine.execVexp c vd va vb ty pred s
  | .vrcp c vd va vb ty pred => Sys2Proof.Machine.execVrcp c vd va vb ty pred s
  | .vsqrt c vd va vb ty pred => Sys2Proof.Machine.execVsqrt c vd va vb ty pred s
  | .vand c vd va vb ty pred => Sys2Proof.Machine.execVand c vd va vb ty pred s
  | .vor c vd va vb ty pred => Sys2Proof.Machine.execVor c vd va vb ty pred s
  | .vxor c vd va vb ty pred => Sys2Proof.Machine.execVxor c vd va vb ty pred s
  | .vshl c vd va vb ty pred => Sys2Proof.Machine.execVshl c vd va vb ty pred s
  | .vshr c vd va vb ty pred => Sys2Proof.Machine.execVshr c vd va vb ty pred s
  | .vcvt c vd va dst src rnd sat blk rsv pred => Sys2Proof.Machine.execVcvt c vd va dst src rnd sat blk rsv pred s
  | .vsum c vd va vb ty pred => Sys2Proof.Machine.execVsum c vd va vb ty pred s
  | .vrmax c vd va vb ty pred => Sys2Proof.Machine.execVrmax c vd va vb ty pred s
  | .vrmin c vd va vb ty pred => Sys2Proof.Machine.execVrmin c vd va vb ty pred s
  | .vcmpEq c pd va vb ty pred => Sys2Proof.Machine.execVcmpEq c pd va vb ty pred s
  | .vcmpNe c pd va vb ty pred => Sys2Proof.Machine.execVcmpNe c pd va vb ty pred s
  | .vcmpLt c pd va vb ty pred => Sys2Proof.Machine.execVcmpLt c pd va vb ty pred s
  | .vcmpLe c pd va vb ty pred => Sys2Proof.Machine.execVcmpLe c pd va vb ty pred s
  | .vbcast c vd ra rb ty pred => Sys2Proof.Machine.execVbcast c vd ra rb ty pred s
  | .vmovs c rd va rb ty pred => Sys2Proof.Machine.execVmovs c rd va rb ty pred s
  | .vsel c vd va vb ty pred => Sys2Proof.Machine.execVsel c vd va vb ty pred s
  | .vperm c vd va vb ty pred => Sys2Proof.Machine.execVperm c vd va vb ty pred s
  | .mload c slot part fmt mx sa sb rsv => Sys2Proof.Machine.execMload c slot part fmt mx sa sb rsv s
  | .mmac c tile slot opn sa sub rsv => Sys2Proof.Machine.execMmac c tile slot opn sa sub rsv s
  | .matrixChunkSummed c => Sys2Proof.Machine.execMatrixChunkSummed c s
  | .mstore c tile fmt rnd sat sa rsv => Sys2Proof.Machine.execMstore c tile fmt rnd sat sa rsv s
  | .mscale c tile sa rsv => Sys2Proof.Machine.execMscale c tile sa rsv s
  | .send c rd ra rb func pred => Sys2Proof.Machine.execSend c rd ra rb func pred s
  | .sendAccepted c k => Sys2Proof.Machine.execSendAccepted c k s
  | .recv c rd ra rb func pred => Sys2Proof.Machine.execRecv c rd ra rb func pred s
  | .put c rd ra rb func pred => Sys2Proof.Machine.execPut c rd ra rb func pred s
  | .get c rd ra rb func pred => Sys2Proof.Machine.execGet c rd ra rb func pred s
  | .waitmsg c rd ra rb func pred => Sys2Proof.Machine.execWaitmsg c rd ra rb func pred s
  | .waitmsgTimeout c => Sys2Proof.Machine.execWaitmsgTimeout c s
  | .bar c rd ra rb func pred => Sys2Proof.Machine.execBar c rd ra rb func pred s
  | .fenceop c m st g x rsv => Sys2Proof.Machine.execFenceop c m st g x rsv s
  | .time c rd ra rb func pred => Sys2Proof.Machine.execTime c rd ra rb func pred s
  | .yieldTask c rd ra rb func pred => Sys2Proof.Machine.execYieldTask c rd ra rb func pred s
  | .mfs c rd ra imm => Sys2Proof.Machine.execMfs c rd ra imm s
  | .mts c rd ra imm => Sys2Proof.Machine.execMts c rd ra imm s
  | .taskBind n ext => Sys2Proof.Machine.execTaskBind n ext s
  | .preemptRequest c => Sys2Proof.Machine.execPreemptRequest c s
  | .preemptStopTimeout c => Sys2Proof.Machine.execPreemptStopTimeout c s
  | .matrixQueueDrained c => Sys2Proof.Machine.execMatrixQueueDrained c s
  | .saveRecordWritten c => Sys2Proof.Machine.execSaveRecordWritten c s
  | .restore n launch task => Sys2Proof.Machine.execRestore n launch task s
  | .forwardComplete c => Sys2Proof.Machine.execForwardComplete c s
  | .programImageReload c ok => Sys2Proof.Machine.execProgramImageReload c ok s
  | .messageDeliver src m => Sys2Proof.Machine.execMessageDeliver src m s
  | .coreMapUpdate router launch task place => Sys2Proof.Machine.execCoreMapUpdate router launch task place s
  | .barArrival n launch barrier count task => Sys2Proof.Machine.execBarArrival n launch barrier count task s
  | .putWriteAtTarget m n va data port0 => Sys2Proof.Machine.execPutWriteAtTarget m n va data port0 s
  | .getReadAtTarget m n va len errs second => Sys2Proof.Machine.execGetReadAtTarget m n va len errs second s
  | .response c k r data => Sys2Proof.Machine.execResponse c k r data s
  | .collideRetry c k port0 => Sys2Proof.Machine.execCollideRetry c k port0 s
  | .bulkWrite src va data => Sys2Proof.Machine.execBulkWrite src va data s
  | .bulkRead src ask errs second => Sys2Proof.Machine.execBulkRead src ask errs second s
  | .collTrigger n handle rank epoch => Sys2Proof.Machine.execCollTrigger n handle rank epoch s
  | .collEpochDone n handle contrib poisoned => Sys2Proof.Machine.execCollEpochDone n handle contrib poisoned s
  | .verdictApply n step items => Sys2Proof.Machine.execVerdictApply n step items s
  | .stepTasksEnded n step ext => Sys2Proof.Machine.execStepTasksEnded n step ext s
  | .verdictAcksComplete n step => Sys2Proof.Machine.execVerdictAcksComplete n step s
  | .selectStep n graph ver => Sys2Proof.Machine.execSelectStep n graph ver s
  | .streamSlotFetch n stream => Sys2Proof.Machine.execStreamSlotFetch n stream s
  | .kvSpill n inst ext => Sys2Proof.Machine.execKvSpill n inst ext s
  | .kvReload n stream authentic => Sys2Proof.Machine.execKvReload n stream authentic s
  | .kvPagesFreed n graph => Sys2Proof.Machine.execKvPagesFreed n graph s
  | .ringRecordsPublish n ring => Sys2Proof.Machine.execRingRecordsPublish n ring s
  | .cidxPoll n ring value => Sys2Proof.Machine.execCidxPoll n ring value s
  | .streamOpen f seq => Sys2Proof.Machine.execStreamOpen f seq s
  | .streamAppend f seq => Sys2Proof.Machine.execStreamAppend f seq s
  | .streamPause f seq => Sys2Proof.Machine.execStreamPause f seq s
  | .streamResume f seq => Sys2Proof.Machine.execStreamResume f seq s
  | .streamCancel f seq => Sys2Proof.Machine.execStreamCancel f seq s
  | .streamClose f seq => Sys2Proof.Machine.execStreamClose f seq s
  | .ringCreate f seq => Sys2Proof.Machine.execRingCreate f seq s
  | .ringDestroy f seq => Sys2Proof.Machine.execRingDestroy f seq s
  | .journalAccept n jseq => Sys2Proof.Machine.execJournalAccept n jseq s
  | .journalMirror item => Sys2Proof.Machine.execJournalMirror item s
  | .storeWriteComplete n jseq ok => Sys2Proof.Machine.execStoreWriteComplete n jseq ok s
  | .sqTailWrite f q port tail => Sys2Proof.Machine.execSqTailWrite f q port tail s
  | .cqHeadWrite f q port head => Sys2Proof.Machine.execCqHeadWrite f q port head s
  | .packetFetch f q units => Sys2Proof.Machine.execPacketFetch f q units s
  | .commandStart f q seq => Sys2Proof.Machine.execCommandStart f q seq s
  | .completionRecord f q seq => Sys2Proof.Machine.execCompletionRecord f q seq s
  | .commandTimeout f q seq => Sys2Proof.Machine.execCommandTimeout f q seq s
  | .fenceStandbyAck n => Sys2Proof.Machine.execFenceStandbyAck n s
  | .fenceStandbyTimeout n => Sys2Proof.Machine.execFenceStandbyTimeout n s
  | .nop f q seq => Sys2Proof.Machine.execNop f q seq s
  | .wait f q seq => Sys2Proof.Machine.execWait f q seq s
  | .signal f q seq => Sys2Proof.Machine.execSignal f q seq s
  | .fenceSetup f seq => Sys2Proof.Machine.execFenceSetup f seq s
  | .rangeMap f seq => Sys2Proof.Machine.execRangeMap f seq s
  | .rangeUnmap f seq => Sys2Proof.Machine.execRangeUnmap f seq s
  | .llmConfig f seq => Sys2Proof.Machine.execLlmConfig f seq s
  | .graphStore f seq image genBlock => Sys2Proof.Machine.execGraphStore f seq image genBlock s
  | .graphPatch f seq patch => Sys2Proof.Machine.execGraphPatch f seq patch s
  | .graphDestroy f seq => Sys2Proof.Machine.execGraphDestroy f seq s
  | .launch f seq => Sys2Proof.Machine.execLaunch f seq s
  | .graphLaunch f seq => Sys2Proof.Machine.execGraphLaunch f seq s
  | .graphNodeStart f seq node ext => Sys2Proof.Machine.execGraphNodeStart f seq node ext s
  | .copy f seq ext => Sys2Proof.Machine.execCopy f seq ext s
  | .fill f seq => Sys2Proof.Machine.execFill f seq s
  | .convert f seq ext => Sys2Proof.Machine.execConvert f seq ext s
  | .collRegister f seq ranks sizes => Sys2Proof.Machine.execCollRegister f seq ranks sizes s
  | .collInvoke f seq => Sys2Proof.Machine.execCollInvoke f seq s
  | .collRelease f seq => Sys2Proof.Machine.execCollRelease f seq s
  | .migrateReturn f seq => Sys2Proof.Machine.execMigrateReturn f seq s
  | .rebalance f seq => Sys2Proof.Machine.execRebalance f seq s
  | .selftest f seq => Sys2Proof.Machine.execSelftest f seq s
  | .margin f seq => Sys2Proof.Machine.execMargin f seq s
  | .selftestDone result => Sys2Proof.Machine.execSelftestDone result s
  | .queueCreate func queue => Sys2Proof.Machine.execQueueCreate func queue s
  | .queueDestroy func queue => Sys2Proof.Machine.execQueueDestroy func queue s
  | .ctxSet func => Sys2Proof.Machine.execCtxSet func s
  | .ctxDestroy func => Sys2Proof.Machine.execCtxDestroy func s
  | .engineAbortAck f q engine => Sys2Proof.Machine.execEngineAbortAck f q engine s
  | .engineAbortTimeout f q => Sys2Proof.Machine.execEngineAbortTimeout f q s
  | .fenceSignal f value => Sys2Proof.Machine.execFenceSignal f value s
  | .alloc n base task order zero => Sys2Proof.Machine.execAlloc n base task order zero s
  | .free n base task addr => Sys2Proof.Machine.execFree n base task addr s
  | .allocPortGet n base task => Sys2Proof.Machine.execAllocPortGet n base task s
  | .vdCreate words => Sys2Proof.Machine.execVdCreate words s
  | .vdGrow words => Sys2Proof.Machine.execVdGrow words s
  | .vdShrink words => Sys2Proof.Machine.execVdShrink words s
  | .vdRelease words => Sys2Proof.Machine.execVdRelease words s
  | .vdSet words => Sys2Proof.Machine.execVdSet words s
  | .reserve origin vdid slices granules => Sys2Proof.Machine.execReserve origin vdid slices granules s
  | .prepare vdid edition change => Sys2Proof.Machine.execPrepare vdid edition change s
  | .settle vdid edition => Sys2Proof.Machine.execSettle vdid edition s
  | .overlapWindowClose vdid => Sys2Proof.Machine.execOverlapWindowClose vdid s
  | .editionAckTimeout vdid modId => Sys2Proof.Machine.execEditionAckTimeout vdid modId s
  | .editionHoldTimeout vdid => Sys2Proof.Machine.execEditionHoldTimeout vdid s
  | .fabricPacketReceive k p => Sys2Proof.Machine.execFabricPacketReceive k p s
  | .packetReturn p => Sys2Proof.Machine.execPacketReturn p s
  | .routeFailTimeout dst ms => Sys2Proof.Machine.execRouteFailTimeout dst ms s
  | .transfer vdid stream edition owner slot items => Sys2Proof.Machine.execTransfer vdid stream edition owner slot items s
  | .held vdid stream edition owner => Sys2Proof.Machine.execHeld vdid stream edition owner s
  | .released vdid stream edition => Sys2Proof.Machine.execReleased vdid stream edition s
  | .handoffTimeout vdid stream copies => Sys2Proof.Machine.execHandoffTimeout vdid stream copies s
  | .arbiterTakeover vdid failed => Sys2Proof.Machine.execArbiterTakeover vdid failed s
  | .sliceReturn slice => Sys2Proof.Machine.execSliceReturn slice s
  | .capacityChange resource capacity => Sys2Proof.Machine.execCapacityChange resource capacity s
  | .replayStart n reads => Sys2Proof.Machine.execReplayStart n reads s
  | .replayComplete n => Sys2Proof.Machine.execReplayComplete n s
  | .linkTrain k t => Sys2Proof.Machine.execLinkTrain k t s
  | .retrain k => Sys2Proof.Machine.execRetrain k s
  | .frameReceive k fl badBytes tagOk => Sys2Proof.Machine.execFrameReceive k fl badBytes tagOk s
  | .nakReplay k ack => Sys2Proof.Machine.execNakReplay k ack s
  | .keyEpochRoll k => Sys2Proof.Machine.execKeyEpochRoll k s
  | .oldKeyErase k => Sys2Proof.Machine.execOldKeyErase k s
  | .laneRecalibrate k => Sys2Proof.Machine.execLaneRecalibrate k s
  | .laneFail k lane => Sys2Proof.Machine.execLaneFail k lane s
  | .route group members => Sys2Proof.Machine.execRoute group members s
  | .linkStateChange k st => Sys2Proof.Machine.execLinkStateChange k st s
  | .lnkModidWrite v => Sys2Proof.Machine.execLnkModidWrite v s
  | .idClaim k id => Sys2Proof.Machine.execIdClaim k id s
  | .idClaimTimeout => Sys2Proof.Machine.execIdClaimTimeout s
  | .rootHeartbeat id => Sys2Proof.Machine.execRootHeartbeat id s
  | .heartbeatTimeout alive => Sys2Proof.Machine.execHeartbeatTimeout alive s
  | .rootVdidCollect vdids => Sys2Proof.Machine.execRootVdidCollect vdids s
  | .abort vdid cause status origin count => Sys2Proof.Machine.execAbort vdid cause status origin count s
  | .timeExchange t1 t2 t3 t4 => Sys2Proof.Machine.execTimeExchange t1 t2 t3 t4 s
  | .flr port fn => Sys2Proof.Machine.execFlr port fn s
  | .perst port => Sys2Proof.Machine.execPerst port s
  | .hotReset port => Sys2Proof.Machine.execHotReset port s
  | .vfMbxSend port n len => Sys2Proof.Machine.execVfMbxSend port n len s
  | .glbMbxDone port n => Sys2Proof.Machine.execGlbMbxDone port n s
  | .switch n => Sys2Proof.Machine.execSwitch n s
  | .portFailure port => Sys2Proof.Machine.execPortFailure port s
  | .flushRead port => Sys2Proof.Machine.execFlushRead port s
  | .flushReadComplete port => Sys2Proof.Machine.execFlushReadComplete port s
  | .noPortTimeout n => Sys2Proof.Machine.execNoPortTimeout n s
  | .atsInvalidateRequest port fn pasid page pages => Sys2Proof.Machine.execAtsInvalidateRequest port fn pasid page pages s
  | .pageFault port fn pasid page holder => Sys2Proof.Machine.execPageFault port fn pasid page holder s
  | .pageRequestGroupResponse fn pasid page success => Sys2Proof.Machine.execPageRequestGroupResponse fn pasid page success s
  | .pageMigrate n page data => Sys2Proof.Machine.execPageMigrate n page data s
  | .slotMove n base slot dest => Sys2Proof.Machine.execSlotMove n base slot dest s
  | .sliceEvacuate n slice => Sys2Proof.Machine.execSliceEvacuate n slice s
  | .surAtcInv port all fn => Sys2Proof.Machine.execSurAtcInv port all fn s
  | .lockInterface n => Sys2Proof.Machine.execLockInterface n s
  | .startInterface n => Sys2Proof.Machine.execStartInterface n s
  | .stopInterface n => Sys2Proof.Machine.execStopInterface n s
  | .getDeviceInterfaceReport n => Sys2Proof.Machine.execGetDeviceInterfaceReport n s
  | .freeze n => Sys2Proof.Machine.execFreeze n s
  | .save n => Sys2Proof.Machine.execSave n s
  | .restoreImage n image authentic => Sys2Proof.Machine.execRestoreImage n image authentic s
  | .thaw n => Sys2Proof.Machine.execThaw n s
  | .discard n => Sys2Proof.Machine.execDiscard n s
  | .peerWindowAccess off write data => Sys2Proof.Machine.execPeerWindowAccess off write data s
  | .keyRotate => Sys2Proof.Machine.execKeyRotate s
  | .resealSweepEnd n => Sys2Proof.Machine.execResealSweepEnd n s
  | .migTarget chainOk killed opn => Sys2Proof.Machine.execMigTarget chainOk killed opn s
  | .commitSvn => Sys2Proof.Machine.execCommitSvn s
  | .keyStatus => Sys2Proof.Machine.execKeyStatus s
  | .tenantKeyDelivery vdid gen older source => Sys2Proof.Machine.execTenantKeyDelivery vdid gen older source s
  | .getVersion session => Sys2Proof.Machine.execGetVersion session s
  | .getCapabilities session => Sys2Proof.Machine.execGetCapabilities session s
  | .negotiateAlgorithms session offered => Sys2Proof.Machine.execNegotiateAlgorithms session offered s
  | .getDigests session => Sys2Proof.Machine.execGetDigests session s
  | .getCertificate session slot => Sys2Proof.Machine.execGetCertificate session slot s
  | .challenge session slot nonce => Sys2Proof.Machine.execChallenge session slot nonce s
  | .getMeasurements session index => Sys2Proof.Machine.execGetMeasurements session index s
  | .keyExchange session => Sys2Proof.Machine.execKeyExchange session s
  | .finish session ok => Sys2Proof.Machine.execFinish session ok s
  | .heartbeat session => Sys2Proof.Machine.execHeartbeat session s
  | .keyUpdate session => Sys2Proof.Machine.execKeyUpdate session s
  | .endSession session => Sys2Proof.Machine.execEndSession session s
  | .vendorDefinedRequest session proto payload => Sys2Proof.Machine.execVendorDefinedRequest session proto payload s
  | .secureBoot okA okB => Sys2Proof.Machine.execSecureBoot okA okB s
  | .alarm code => Sys2Proof.Machine.execAlarm code s
  | .tamperLoopOpen => Sys2Proof.Machine.execTamperLoopOpen s
  | .tamperMeshBreach => Sys2Proof.Machine.execTamperMeshBreach s
  | .monitorOutOfRange => Sys2Proof.Machine.execMonitorOutOfRange s
  | .faultInjectionDetect => Sys2Proof.Machine.execFaultInjectionDetect s
  | .decommissionRequest authorised => Sys2Proof.Machine.execDecommissionRequest authorised s
  | .debugAuthorisation authorised target => Sys2Proof.Machine.execDebugAuthorisation authorised target s
  | .foldWindowEnd cls code utype uindex vdid => Sys2Proof.Machine.execFoldWindowEnd cls code utype uindex vdid s
  | .errRingCidxWrite v => Sys2Proof.Machine.execErrRingCidxWrite v s
  | .errHang n => Sys2Proof.Machine.execErrHang n s
  | .wfgSweep vdid waits us => Sys2Proof.Machine.execWfgSweep vdid waits us s
  | .processorWatchdogExpiry p => Sys2Proof.Machine.execProcessorWatchdogExpiry p s
  | .engineStall e => Sys2Proof.Machine.execEngineStall e s
  | .failureDeclaration vdid modId edition => Sys2Proof.Machine.execFailureDeclaration vdid modId edition s
  | .isolationTimeout vdid => Sys2Proof.Machine.execIsolationTimeout vdid s
  | .moduleRecovery vdid rank edition returned => Sys2Proof.Machine.execModuleRecovery vdid rank edition returned s
  | .stackRecovery stack failedChannels => Sys2Proof.Machine.execStackRecovery stack failedChannels s
  | .recoveryReplace n => Sys2Proof.Machine.execRecoveryReplace n s
  | .crashDump reason byCartouche => Sys2Proof.Machine.execCrashDump reason byCartouche s
  | .errDumpDest addr => Sys2Proof.Machine.execErrDumpDest addr s
  | .lineRepair n pa data => Sys2Proof.Machine.execLineRepair n pa data s
  | .lineRepairFail n pa => Sys2Proof.Machine.execLineRepairFail n pa s
  | .rowRepair g bank row => Sys2Proof.Machine.execRowRepair g bank row s
  | .pageRetire g page => Sys2Proof.Machine.execPageRetire g page s
  | .patrolRead pa errs second written => Sys2Proof.Machine.execPatrolRead pa errs second written s
  | .sramPatrol kind unit word badBits => Sys2Proof.Machine.execSramPatrol kind unit word badBits s
  | .stackRecalibrate g => Sys2Proof.Machine.execStackRecalibrate g s
  | .stackRefresh g bank => Sys2Proof.Machine.execStackRefresh g bank s
  | .innerEccReadout stack count => Sys2Proof.Machine.execInnerEccReadout stack count s
  | .sliceErase slice => Sys2Proof.Machine.execSliceErase slice s
  | .sliceEraseEnd slice => Sys2Proof.Machine.execSliceEraseEnd slice s
  | .retirePendingTake g => Sys2Proof.Machine.execRetirePendingTake g s
  | .channelSlotIssue g => Sys2Proof.Machine.execChannelSlotIssue g s
  | .urgentMarkExpiry g k => Sys2Proof.Machine.execUrgentMarkExpiry g k s
  | .activityEstimate c watts => Sys2Proof.Machine.execActivityEstimate c watts s
  | .weightRefit weights => Sys2Proof.Machine.execWeightRefit weights s
  | .issueRateUpdate rates pin => Sys2Proof.Machine.execIssueRateUpdate rates pin s
  | .clockStep c down => Sys2Proof.Machine.execClockStep c down s
  | .droop c percent => Sys2Proof.Machine.execDroop c percent s
  | .droopRestore c => Sys2Proof.Machine.execDroopRestore c s
  | .vinChange mv10 us => Sys2Proof.Machine.execVinChange mv10 us s
  | .inputCurrentLimit meanMa10 peakMa10 => Sys2Proof.Machine.execInputCurrentLimit meanMa10 peakMa10 s
  | .throttleN low => Sys2Proof.Machine.execThrottleN low s
  | .pldmSetPowerCap w => Sys2Proof.Machine.execPldmSetPowerCap w s
  | .temperatureThreshold sensor unit celsius => Sys2Proof.Machine.execTemperatureThreshold sensor unit celsius s
  | .thermalShutdown sensor celsius => Sys2Proof.Machine.execThermalShutdown sensor celsius s
  | .meridianTick => Sys2Proof.Machine.execMeridianTick s
  | .interpolatorResync c stoppedAt cause => Sys2Proof.Machine.execInterpolatorResync c stoppedAt cause s
  | .vfCntSnap n => Sys2Proof.Machine.execVfCntSnap n s
  | .traceRecord t typ part pvalid source data => Sys2Proof.Machine.execTraceRecord t typ part pvalid source data s
  | .traceTrigger t sel => Sys2Proof.Machine.execTraceTrigger t sel s
  | .trcCtlEnable t v => Sys2Proof.Machine.execTrcCtlEnable t v s
  | .tracePostEnd t => Sys2Proof.Machine.execTracePostEnd t s
  | .evcClaim target => Sys2Proof.Machine.execEvcClaim target s
  | .evcEoi target id => Sys2Proof.Machine.execEvcEoi target id s
  | .evcPrivSet target bits => Sys2Proof.Machine.execEvcPrivSet target bits s
  | .evcShSet target id => Sys2Proof.Machine.execEvcShSet target id s
  | .evcShRouteWrite target id v => Sys2Proof.Machine.execEvcShRouteWrite target id v s
  | .eventSourceLevel target id level => Sys2Proof.Machine.execEventSourceLevel target id level s
  | .moderationTimeout target => Sys2Proof.Machine.execModerationTimeout target s
  | .pwrEnRise => Sys2Proof.Machine.execPwrEnRise s
  | .pwrEnFall => Sys2Proof.Machine.execPwrEnFall s
  | .modRstNFall => Sys2Proof.Machine.execModRstNFall s
  | .modRstNRise => Sys2Proof.Machine.execModRstNRise s
  | .stackTraining stack ok => Sys2Proof.Machine.execStackTraining stack ok s
  | .pldmFwTransfer svn ok => Sys2Proof.Machine.execPldmFwTransfer svn ok s
  | .activateFirmware => Sys2Proof.Machine.execActivateFirmware s
  | .registerWrite bar func port offset width value tbit => Sys2Proof.Machine.execRegisterWrite bar func port offset width value tbit s
  | .frameSend k => Sys2Proof.Machine.execFrameSend k s
  | .matrixInstructionComplete c => Sys2Proof.Machine.execMatrixInstructionComplete c s
  | .marginSweepEnd g eyes => Sys2Proof.Machine.execMarginSweepEnd g eyes s
  | .reserveTimeout => Sys2Proof.Machine.execReserveTimeout s
  | .registerRead bar func port offset width tbit => Sys2Proof.Machine.execRegisterRead bar func port offset width tbit s
  | .portLinkUp port gen width ats => Sys2Proof.Machine.execPortLinkUp port gen width ats s
  | .stackTrainingLoss g => Sys2Proof.Machine.execStackTrainingLoss g s
  | .stackControllerStall stack => Sys2Proof.Machine.execStackControllerStall stack s
  | .cartoucheMonitorTimeout => Sys2Proof.Machine.execCartoucheMonitorTimeout s
  | .resetReadyTimeout vdid modId => Sys2Proof.Machine.execResetReadyTimeout vdid modId s

end Sys2Proof.Machine
end

