-- ==== Sys2Proof/Safety.lean ====
section
/-! DEFINITION. What the statements speak of: a core that can issue, the state after a completed instruction, what an effect leaves alone, and the forms that every step keeps. -/

namespace Sys2Proof.Machine

/-- Core `c` issues its next instruction: a task runs on it, nothing blocks it, and its PC lies in its image (R61, R67). -/
def canIssue (s : State) (c : Nat) : Prop :=
  (coreOf s c).mode = .running ∧ (coreOf s c).blocked = .none ∧ 0 ≤ (coreOf s c).pc ∧ (coreOf s c).pc < (coreOf s c).image.length

/-- The word that core `c` fetches is the word of instruction `i` (R67, R69, R70). -/
def atPc (s : State) (c : Nat) (i : Instr) : Prop := coreWord i = some (fetched (coreOf s c))

/-- The state in which core `c` has completed an instruction that left it as `k`, with the instruction counted (R416). -/
def issued (s : State) (c : Nat) (k : Core) : State :=
  countBoth (modCore s c (fun _ => k)) c (coreOf s c).part 1 1 1

/-- `t` differs from `s` in core `c` and in event counters alone. -/
def onlyCore (s t : State) (c : Nat) : Prop :=
  t = { s with cores := t.cores, clusters := t.clusters, modCnt := t.modCnt, parts := t.parts } ∧
  (∀ d, d ≠ c → coreOf t d = coreOf s d) ∧
  (∀ d, clusterOf t d = { clusterOf s d with counters := (clusterOf t d).counters }) ∧
  ∀ n, partOf t n = { partOf s n with counters := (partOf t n).counters }

/-- A vector instruction writes lane `i` of vd with what `f` gives for the old lane and the two source lanes where the predicate has bit
`i`, keeps the other lanes, and raises exactly the flags of the active lanes (R63, R48). -/
def laneWise (i : Instr) (s : State) (c : Nat) (vd va vb : BitVec 5) (ty pred : BitVec 3)
    (f : Nat → Nat → Nat → Nat × Flg) : Prop :=
  let k := coreOf s c
  let w := fmtBits (tyFmt ty)
  let p := pRead k pred.toNat
  atPc s c i → ∃ (v : VReg) (g : Flg),
    exec i s = .next (issued s c (nextPc (raiseFlags (vWrite k vd.toNat v) g))) ∧
    (∀ j, j < laneCount w → lane v w j =
      if active p j then (f (lane (vRead k vd.toNat) w j) (lane (vRead k va.toNat) w j) (lane (vRead k vb.toNat) w j)).1 % 2 ^ w
      else lane (vRead k vd.toNat) w j) ∧
    ∀ q : Flg → Bool, q = Flg.nv ∨ q = Flg.ovf ∨ q = Flg.unf →
      (q g = true ↔ ∃ j, j < laneCount w ∧ active p j = true ∧
        q (f (lane (vRead k vd.toNat) w j) (lane (vRead k va.toNat) w j) (lane (vRead k vb.toNat) w j)).2 = true)

/-- A span that lies inside one 4 KiB page of a DEVICE range placed on this module, with the physical address of its first byte (R157, R158,
R179). -/
def deviceSpan (s : State) (n va len : Nat) (r : Range) (pa : Nat) : Prop :=
  findRange (partOf s n) va = some r ∧ r.kind = 1 ∧ r.modId = s.glb.moduleId ∧ poolPort r va = false ∧ va < 2 ^ 52 ∧
  1 ≤ len ∧ len ≤ 4096 - va % 4096 ∧ redirect s (deviceAddr r va) = pa

/-- Module memory outside `P` is as before; a clean line that has left the cache gives what its stack holds (R130, R131). -/
def memKept (s t : State) (P : Nat → Prop) : Prop :=
  ∀ a, ¬ P a → tabGet 0#8 t.mem a = tabGet 0#8 s.mem a ∨
    ∃ e, tabGet none s.cache (a / 128) = some e ∧ e.dirty = false ∧ tabGet 0#8 t.mem a = e.stack.getD (a % 128) 0#8

/-- Every clean line of the LLM cache holds what its stack holds (R130). -/
def cacheTrue (s : State) : Prop :=
  ∀ l e, tabGet none s.cache l = some e → e.dirty = false → e.stack = tabBytes s.mem (128 * l) 128

/-- Bytes written at a physical address of a range of partition `n`, and at the place that the slot under them is being moved to (R178). -/
def wroteSpan (s t : State) (n pa : Nat) (data : List Byte) : Prop :=
  (∀ j, j < data.length → tabGet 0#8 t.mem (pa + j) = data.getD j 0#8) ∧
  memKept s t (fun a => (pa ≤ a ∧ a < pa + data.length) ∨ ∃ b, moveCopy s n pa = some b ∧ b ≤ a ∧ a < b + data.length)

/-- A fault of core `c` with the given code: the core is free and its queue empty; a context that was ACTIVE is LOST with the fault's code
(R88, R241, R242). -/
def faulted (s t : State) (c code : Nat) : Prop :=
  let n := (coreOf s c).part
  (coreOf t c).mode = .idle ∧ (coreOf t c).queue = [] ∧
  ((partOf s n).ctx.state = .active →
    (partOf t n).ctx.state = .lost ∧ (partOf t n).ctx.cause = 0x11 ∧ (partOf t n).ctx.lostFault = code ∧ t.cq.lostMask.testBit n = true)

/-- `t` differs from `s` in the data of partition `n` alone. -/
def onlyPart (s t : State) (n : Nat) : Prop := t = { s with parts := t.parts } ∧ ∀ m, m ≠ n → partOf t m = partOf s m

/-- `t` differs from `s` in one queue of function `f` alone. -/
def onlyQueue (s t : State) (f q : Nat) : Prop :=
  onlyPart s t f ∧ partOf t f = { partOf s f with queues := (partOf t f).queues } ∧ ∀ r, r ≠ q → queueOf t f r = queueOf s f r

/-- From `s` to `t`, the command `seq` of a queue has completed with a status and a RESULT, and nothing else has changed (R231). -/
def completes (s t : State) (f q seq status result : Nat) : Prop :=
  onlyQueue s t f q ∧ queueOf t f q = { queueOf s f q with
    cmds := (queueOf s f q).cmds.map (fun c => if c.seq = seq then { c with phase := .done, status := status, result := result } else c) }

/-- Memory is in its canonical form: addresses rise and no byte that reads as an unlisted one is listed. -/
def memCanonical (s : State) : Prop := tabWf 0#8 s.mem = true

end Sys2Proof.Machine
end

