-- ==== Sys2Proof/Certificates/Slice0/Obligations.lean ====
section
/-! DEFINITION. The statements for the provers, one definition each. -/

open Sys2Proof Sys2Proof.Machine

/-- Every command at the front of the queue takes effect, as exec says, on the state with the queue's rest. The idling on an empty queue
is the model's choice (log 1). -/
def Obligations.FrontCommand : Prop :=
  (∀ (s : State) (c : Instr), step { s with pending := c :: s.pending } = exec c s) ∧
  ∀ s : State, s.pending = [] → step s = .next s

/-- R70, R71: the scalar instructions with a zero pred field compute in 64-bit two's complement and write rd; the next state is whole. -/
def Obligations.ScalarArithmetic : Prop :=
  ∀ (s : State) (c : Nat) (rd ra rb : BitVec 5), canIssue s c →
    let k := coreOf s c
    let a := sRead k ra.toNat
    let b := sRead k rb.toNat
    let n := a.toNat % 64
    let writes (i : Instr) (v : W64) : Prop := atPc s c i → exec i s = .next (issued s c (nextPc (sWrite k rd.toNat v)))
    writes (.add c rd ra rb 0) (BitVec.ofInt 64 (a.toInt + b.toInt)) ∧
    writes (.sub c rd ra rb 0) (BitVec.ofInt 64 (a.toInt - b.toInt)) ∧
    writes (.and c rd ra rb 0) (a &&& b) ∧
    writes (.or c rd ra rb 0) (a ||| b) ∧
    writes (.xor c rd ra rb 0) (a ^^^ b) ∧
    writes (.shl c rd ra rb 0) (BitVec.ofNat 64 (b.toNat * 2 ^ n)) ∧
    writes (.shr c rd ra rb 0) (BitVec.ofNat 64 (b.toNat / 2 ^ n)) ∧
    writes (.sra c rd ra rb 0) (BitVec.ofInt 64 (b.toInt / (2 ^ n : Nat))) ∧
    writes (.mul c rd ra rb 0) (BitVec.ofInt 64 (a.toInt * b.toInt)) ∧
    writes (.mulh c rd ra rb 0) (BitVec.ofInt 64 (a.toInt * b.toInt / (2 ^ 64 : Nat))) ∧
    writes (.div c rd ra rb 0) (if b = 0 then BitVec.allOnes 64 else BitVec.ofInt 64 (a.toInt.tdiv b.toInt)) ∧
    writes (.rem c rd ra rb 0) (if b = 0 then a else BitVec.ofInt 64 (a.toInt.tmod b.toInt)) ∧
    writes (.slt c rd ra rb 0) (if a.toInt < b.toInt then 1 else 0) ∧
    writes (.sltu c rd ra rb 0) (if a.toNat < b.toNat then 1 else 0) ∧
    writes (.min c rd ra rb 0) (BitVec.ofInt 64 (Min.min a.toInt b.toInt)) ∧
    writes (.max c rd ra rb 0) (BitVec.ofInt 64 (Max.max a.toInt b.toInt))

/-- First: R70: the immediates, which write rd from ra and the signed imm16, and the branches and jumps, which compare as signed numbers and move
the PC by their signed offset; JAL leaves PC + 1 in s31 and JR goes to ra[12:0].
Second: R64, R70, R84, R29: the special registers that have a number are read and written, a write to CTASK is ignored, CLIVE rounds up to
4 KiB and stops at 0x4_0000; TIME writes the Meridian count; YIELD sets CLIVE from ra unless ra is s0 and gives way to a pending
pre-emption. -/
def Obligations.ImmediatesBranchesAndSpecials : Prop :=
  (∀ (s : State) (c : Nat) (rd ra rb : BitVec 5) (imm : BitVec 16) (off : BitVec 26), canIssue s c →
     let k := coreOf s c
     let a := sRead k ra.toNat
     let b := sRead k rb.toNat
     let writes (i : Instr) (v : W64) : Prop := atPc s c i → exec i s = .next (issued s c (nextPc (sWrite k rd.toNat v)))
     let goes (i : Instr) (taken : Prop) [Decidable taken] : Prop :=
       atPc s c i → exec i s = .next (issued s c { k with pc := if taken then k.pc + imm.toInt else k.pc + 1 })
     writes (.addi c rd ra imm) (BitVec.ofInt 64 (a.toInt + imm.toInt)) ∧
     writes (.lui c rd ra imm) (BitVec.ofInt 64 (imm.toInt * 2 ^ 16)) ∧
     writes (.andi c rd ra imm) (a &&& BitVec.ofInt 64 imm.toInt) ∧
     writes (.ori c rd ra imm) (a ||| BitVec.ofInt 64 imm.toInt) ∧
     writes (.slti c rd ra imm) (if a.toInt < imm.toInt then 1 else 0) ∧
     goes (.beq c ra rb imm) (a = b) ∧
     goes (.bne c ra rb imm) (a ≠ b) ∧
     goes (.blt c ra rb imm) (a.toInt < b.toInt) ∧
     goes (.bge c ra rb imm) (b.toInt ≤ a.toInt) ∧
     (atPc s c (.jal c off) → exec (.jal c off) s = .next (issued s c { sWrite k 31 (BitVec.ofInt 64 (k.pc + 1)) with pc := k.pc + off.toInt })) ∧
     (atPc s c (.jr c 0 ra 0 0 0) → exec (.jr c 0 ra 0 0 0) s = .next (issued s c { k with pc := (a.toNat % 8192 : Nat) }))) ∧
  (∀ (s : State) (c : Nat) (rd ra : BitVec 5), canIssue s c →
     let k := coreOf s c
     let a := sRead k ra.toNat
     let clive := Min.min ((a.toNat % 2 ^ 19 + 4095) / 4096 * 4096) 0x40000
     let reads (n : BitVec 16) (v : Nat) : Prop := atPc s c (.mfs c rd ra n) → exec (.mfs c rd ra n) s = .next (issued s c (nextPc (sWrite k rd.toNat (BitVec.ofNat 64 v))))
     let sets (n : BitVec 16) (k' : Core) : Prop := atPc s c (.mts c rd ra n) → exec (.mts c rd ra n) s = .next (issued s c (nextPc k'))
     reads 0 ((if k.nv then 1 else 0) + (if k.ovf then 2 else 0) + (if k.unf then 4 else 0)) ∧
     reads 1 (k.task % 2 ^ 32) ∧
     reads 2 k.clive ∧
     sets 0 { k with nv := a.getLsbD 0, ovf := a.getLsbD 1, unf := a.getLsbD 2 } ∧
     sets 1 k ∧
     sets 2 { k with clive := clive } ∧
     (atPc s c (.time c rd 0 0 0 0) → ∃ v : Int, (s.pwr.meridian : Int) - 5 ≤ v ∧ v ≤ (s.pwr.meridian : Int) + 5 ∧
       exec (.time c rd 0 0 0 0) s = .next (issued s c (nextPc (sWrite k rd.toNat (BitVec.ofInt 64 v))))) ∧
     (let k1 := { k with pc := k.pc + 1, clive := if ra = 0 then k.clive else clive }
      atPc s c (.yieldTask c 0 ra 0 0 0) → exec (.yieldTask c 0 ra 0 0 0) s = .next (issued s c (if k.preemptReq then { k1 with mode := .draining, cause := 1 } else k1))))

/-- R65, R70, R126, R76: a load whose bytes lie in local memory, aligned and not poisoned, extends the value it reads; a store writes the
low bytes of rd outside every open node stack; VLD and VST move the active 32-bit lanes. -/
def Obligations.LoadsAndStores : Prop :=
  ∀ (s : State) (c : Nat) (rd base : BitVec 5) (off : BitVec 13) (size pred : BitVec 3) (a : Nat), canIssue s c →
    let k := coreOf s c
    let p := pRead k pred.toNat
    (∀ n : Nat, size.toNat ≤ 3 → n = 2 ^ size.toNat → effAddr k base.toNat off n = a → a % n = 0 → a + n ≤ 0x40000 →
      (localPoisoned k a n = false →
        (atPc s c (.ld c rd base off size) → exec (.ld c rd base off size) s =
          .next (issued s c (nextPc (sWrite k rd.toNat (BitVec.ofInt 64 (signed (8 * n) (bytesNat (tabBytes k.lmem a n)))))))) ∧
        (atPc s c (.ldu c rd base off size) → exec (.ldu c rd base off size) s =
          .next (issued s c (nextPc (sWrite k rd.toNat (BitVec.ofNat 64 (bytesNat (tabBytes k.lmem a n)))))))) ∧
      (nodeProtected k a n = false → atPc s c (.st c rd base off size) → ∃ k' : Core,
        exec (.st c rd base off size) s = .next (issued s c (nextPc k')) ∧
        k' = { k with queue := k'.queue, lmem := k'.lmem, lpoison := k'.lpoison } ∧
        (∀ j, j < n → tabGet 0#8 k'.lmem (a + j) = BitVec.ofNat 8 ((sRead k rd.toNat).toNat / 256 ^ j)) ∧
        ∀ j, j < a ∨ a + n ≤ j → tabGet 0#8 k'.lmem j = tabGet 0#8 k.lmem j)) ∧
    (effAddr k base.toNat off 128 = a → a % 128 = 0 → a + 128 ≤ 0x40000 →
      (localPoisoned k a 128 = false → atPc s c (.vld c rd base off pred) → ∃ v : VReg,
        exec (.vld c rd base off pred) s = .next (issued s c (nextPc (vWrite k rd.toNat v))) ∧
        ∀ j, j < 32 → lane v 32 j = if active p j then bytesNat (tabBytes k.lmem (a + 4 * j) 4) else lane (vRead k rd.toNat) 32 j) ∧
      ((∀ j, j < 32 → active p j = true → nodeProtected k (a + 4 * j) 4 = false) → atPc s c (.vst c rd base off pred) → ∃ k' : Core,
        exec (.vst c rd base off pred) s = .next (issued s c (nextPc k')) ∧
        k' = { k with queue := k'.queue, lmem := k'.lmem, lpoison := k'.lpoison } ∧
        (∀ j, j < 32 → bytesNat (tabBytes k'.lmem (a + 4 * j) 4) =
          if active p j then lane (vRead k rd.toNat) 32 j else bytesNat (tabBytes k.lmem (a + 4 * j) 4)) ∧
        ∀ j, j < a ∨ a + 128 ≤ j → tabGet 0#8 k'.lmem j = tabGet 0#8 k.lmem j))

/-- R57, R63, R70, R71: the element-wise operations, lane by lane. An integer result outside its lane is the model's free value (log 19),
the neighbour that VEXP returns is Config's (log 8). -/
def Obligations.VectorElementWise : Prop :=
  ∀ (s : State) (c : Nat) (vd va vb : BitVec 5) (ty pred : BitVec 3), canIssue s c → ty.toNat ≤ 4 →
    let fm := tyFmt ty
    let w := fmtBits fm
    let lw (i : Instr) (f : Nat → Nat → Nat → Nat × Flg) : Prop := laneWise i s c vd va vb ty pred f
    (ty.toNat ≤ 2 →
      lw (.vadd c vd va vb ty pred) (fun _ a b => fadd fm a b) ∧
      lw (.vsub c vd va vb ty pred) (fun _ a b => fsub fm a b) ∧
      lw (.vmul c vd va vb ty pred) (fun _ a b => fmul fm a b) ∧
      lw (.vfma c vd va vb ty pred) (fun d a b => ffma fm d a b) ∧
      lw (.vmax c vd va vb ty pred) (fun _ a b => (fmaxc fm a b, {})) ∧
      lw (.vmin c vd va vb ty pred) (fun _ a b => (fminc fm a b, {})) ∧
      lw (.vabs c vd va vb ty pred) (fun _ a _ => fabsc fm a) ∧
      lw (.vneg c vd va vb ty pred) (fun _ a _ => fnegc fm a) ∧
      lw (.vexp c vd va vb ty pred) (fun _ a _ => fexp fm a) ∧
      lw (.vrcp c vd va vb ty pred) (fun _ a _ => frcp fm a) ∧
      lw (.vsqrt c vd va vb ty pred) (fun _ a _ => fsqrt fm a)) ∧
    (3 ≤ ty.toNat →
      lw (.vadd c vd va vb ty pred) (fun z a b => intLane 0 fm z a b (signed w a + signed w b)) ∧
      lw (.vsub c vd va vb ty pred) (fun z a b => intLane 1 fm z a b (signed w a - signed w b)) ∧
      lw (.vmul c vd va vb ty pred) (fun z a b => intLane 2 fm z a b (signed w a * signed w b)) ∧
      lw (.vfma c vd va vb ty pred) (fun z a b => intLane 3 fm z a b (signed w z + signed w a * signed w b)) ∧
      lw (.vmax c vd va vb ty pred) (fun _ a b => (wrapNat w (Max.max (signed w a) (signed w b)), {})) ∧
      lw (.vmin c vd va vb ty pred) (fun _ a b => (wrapNat w (Min.min (signed w a) (signed w b)), {})) ∧
      lw (.vabs c vd va vb ty pred) (fun z a b => intLane 6 fm z a b (signed w a).natAbs) ∧
      lw (.vneg c vd va vb ty pred) (fun z a b => intLane 7 fm z a b (-signed w a)) ∧
      lw (.vand c vd va vb ty pred) (fun _ a b => (a &&& b, {})) ∧
      lw (.vor c vd va vb ty pred) (fun _ a b => (a ||| b, {})) ∧
      lw (.vxor c vd va vb ty pred) (fun _ a b => (a ^^^ b, {})) ∧
      lw (.vshl c vd va vb ty pred) (fun _ a b => (a * 2 ^ b, {})) ∧
      lw (.vshr c vd va vb ty pred) (fun _ a b => (wrapNat w (signed w a / (2 ^ b : Nat)), {})))

/-- First: R57, R63, R70, R71: a reduction leaves its value in lane 0 and zero in every other lane: VSUM on integers is the sum of the active
lanes modulo the lane width, on floats one chunk sum narrowed once (log 24); VRMAX and VRMIN the maximum and minimum of the active lanes,
a free value when none is active (log 22).
Second: R63, R70: a comparison writes a bit for each active lane and clears every other bit of the destination predicate; p0 stays. A comparison
with a NaN is false, but for NE (log 25). -/
def Obligations.VectorReductionsAndCompare : Prop :=
  (∀ (s : State) (c : Nat) (vd va vb : BitVec 5) (ty pred : BitVec 3), canIssue s c → ty.toNat ≤ 4 →
     let k := coreOf s c
     let fm := tyFmt ty
     let w := fmtBits fm
     let xs := activeLanes (pRead k pred.toNat) (vRead k va.toNat) w
     let leaves (i : Instr) (x : Nat) (g : Flg) : Prop :=
       atPc s c i → exec i s = .next (issued s c (nextPc (raiseFlags (vWrite k vd.toNat (BitVec.ofNat 1024 (x % 2 ^ w))) g)))
     (3 ≤ ty.toNat →
       leaves (.vsum c vd va vb ty pred) (wrapNat w ((xs.map (signed w)).sum)) {} ∧
       ∀ x t, xs = x :: t →
         leaves (.vrmax c vd va vb ty pred) (wrapNat w (t.foldl (fun m y => Max.max m (signed w y)) (signed w x))) {} ∧
         leaves (.vrmin c vd va vb ty pred) (wrapNat w (t.foldl (fun m y => Min.min m (signed w y)) (signed w x))) {}) ∧
     (ty.toNat ≤ 2 →
       leaves (.vsum c vd va vb ty pred) (narrowSum fm (chunkSum (xs.map (fun x => termOf (decodeFloat fm x))))).1
         (narrowSum fm (chunkSum (xs.map (fun x => termOf (decodeFloat fm x))))).2 ∧
       ∀ x t, xs = x :: t →
         leaves (.vrmax c vd va vb ty pred) (t.foldl (fmaxc fm) (fmaxc fm x x)) {} ∧
         leaves (.vrmin c vd va vb ty pred) (t.foldl (fminc fm) (fminc fm x x)) {}) ∧
     (xs = [] →
       leaves (.vrmax c vd va vb ty pred) (Config.emptyReduce 1 fm) {} ∧
       leaves (.vrmin c vd va vb ty pred) (Config.emptyReduce 2 fm) {})) ∧
  (∀ (s : State) (c : Nat) (pd va vb : BitVec 5) (ty pred : BitVec 3), canIssue s c → ty.toNat ≤ 4 → pd.toNat < 8 →
     let k := coreOf s c
     let fm := tyFmt ty
     let w := fmtBits fm
     let tests (i : Instr) (fl : Val → Val → Bool) (it : Int → Int → Prop) : Prop :=
       atPc s c i → ∃ p : W64, exec i s = .next (issued s c (nextPc (pWrite k pd.toNat p))) ∧
         ∀ j, j < 64 → (p.getLsbD j = true ↔ j < laneCount w ∧ active (pRead k pred.toNat) j = true ∧
           (if ty.toNat ≤ 2 then
             fl (decodeFloat fm (lane (vRead k va.toNat) w j)) (decodeFloat fm (lane (vRead k vb.toNat) w j)) = true
           else it (signed w (lane (vRead k va.toNat) w j)) (signed w (lane (vRead k vb.toNat) w j))))
     tests (.vcmpEq c pd va vb ty pred) valEq (fun a b => a = b) ∧
     tests (.vcmpNe c pd va vb ty pred) (fun a b => !valEq a b) (fun a b => a ≠ b) ∧
     tests (.vcmpLt c pd va vb ty pred) valLt (fun a b => a < b) ∧
     tests (.vcmpLe c pd va vb ty pred) (fun a b => valLt a b || valEq a b) (fun a b => a ≤ b))

/-- R63, R70, R72: VBCAST, VSEL and VPERM write the active lanes, VMOVS moves one lane to a scalar register (its upper bits are free, log
21). VCVT without BLK converts every active element once, and a packed destination is zero behind its codes; with BLK it forms or reads one block, whose
scale lies in byte 127. A lane index beyond the lane count reads a free value (log 20), and so does a lane past the converted elements (log 27). -/
def Obligations.VectorMoves : Prop :=
  ∀ (s : State) (c : Nat) (vd va vb : BitVec 5) (ty pred : BitVec 3), canIssue s c → ty.toNat ≤ 4 →
    let k := coreOf s c
    let fm := tyFmt ty
    let w := fmtBits fm
    let p := pRead k pred.toNat
    let moves (i : Instr) (f g : Nat → Nat) : Prop :=
      atPc s c i → ∃ v : VReg, exec i s = .next (issued s c (nextPc (vWrite k vd.toNat v))) ∧
        ∀ j, j < laneCount w → lane v w j = if active p j then f j else g j
    moves (.vbcast c vd va vb ty pred) (fun _ => (sRead k va.toNat).toNat % 2 ^ w) (lane (vRead k vd.toNat) w) ∧
    moves (.vsel c vd va vb ty pred) (lane (vRead k va.toNat) w) (lane (vRead k vb.toNat) w) ∧
    moves (.vperm c vd va vb ty pred)
      (fun j => let i := lane (vRead k vb.toNat) w j
        if i < laneCount w then lane (vRead k va.toNat) w i else Config.laneOutside fm i % 2 ^ w)
      (lane (vRead k vd.toNat) w) ∧
    (atPc s c (.vmovs c vd va vb ty 0) → ∃ x : W64, exec (.vmovs c vd va vb ty 0) s = .next (issued s c (nextPc (sWrite k vd.toNat x))) ∧
      ((sRead k vb.toNat).toNat < laneCount w → x.toNat % 2 ^ w = lane (vRead k va.toNat) w (sRead k vb.toNat).toNat)) ∧
    (∀ (dst src : BitVec 4) (rnd sat : Bool), dst.toNat ≤ 12 → src.toNat ≤ 12 → dst.toNat ≠ fLG4 → src.toNat ≠ fLG4 →
      (fmtReg dst.toNat = true ∨ fmtReg src.toNat = true) → (sat = true ∨ dst.toNat = fE4M3 ∨ dst.toNat = fE5M2) →
      let dw := fmtBits dst.toNat
      let n := vcvtCount dst.toNat src.toNat
      let conv (j : Nat) := toElem dst.toNat rnd sat (decodeElem src.toNat (lane (vRead k va.toNat) (fmtBits src.toNat) j))
      atPc s c (.vcvt c vd va dst src rnd sat false 0 pred) → ∃ (v : VReg) (g : Flg),
        exec (.vcvt c vd va dst src rnd sat false 0 pred) s = .next (issued s c (nextPc (raiseFlags (vWrite k vd.toNat v) g))) ∧
        (∀ j, j < n → lane v dw j = if active p j then (conv j).1 % 2 ^ dw else lane (vRead k vd.toNat) dw j) ∧
        (fmtReg dst.toNat = false → ∀ j, n ≤ j → lane v dw j = 0) ∧
        ∀ q : Flg → Bool, q = Flg.nv ∨ q = Flg.ovf ∨ q = Flg.unf →
          (q g = true ↔ ∃ j, j < n ∧ active p j = true ∧ q (conv j).2 = true)) ∧
    ∀ (f : BitVec 4) (rnd : Bool), fmtBlock f.toNat = true →
      let fw := fmtBits f.toNat
      (let (x, cs, g) := toBlock f.toNat rnd ((lanes (vRead k va.toNat) 32).map (decodeFloat fFP32))
       atPc s c (.vcvt c vd va f 0 rnd true true 0 0) → ∃ v : VReg,
         exec (.vcvt c vd va f 0 rnd true true 0 0) s = .next (issued s c (nextPc (raiseFlags (vWrite k vd.toNat v) g))) ∧
         (∀ j, j < 32 → lane v fw j = cs.getD j 0 % 2 ^ fw) ∧ lane v 8 127 = x % 256 ∧ ∀ j, 4 * fw ≤ j → j < 127 → lane v 8 j = 0) ∧
      (let a := vRead k va.toNat
       let conv (j : Nat) := toFloat fFP32 rnd true (scaledElem f.toNat (lane a fw j) (lane a 8 127))
       atPc s c (.vcvt c vd va 0 f rnd true true 0 0) → ∃ (v : VReg) (g : Flg),
         exec (.vcvt c vd va 0 f rnd true true 0 0) s = .next (issued s c (nextPc (raiseFlags (vWrite k vd.toNat v) g))) ∧
         (∀ j, j < 32 → lane v 32 j = (conv j).1 % 2 ^ 32) ∧
         ∀ q : Flg → Bool, q = Flg.nv ∨ q = Flg.ovf ∨ q = Flg.unf → (q g = true ↔ ∃ j, j < 32 ∧ q (conv j).2 = true))

/-- R61, R70, R73–R75, R78: a matrix instruction enters the queue with the values it reads from its registers, and its core goes on; while the queue
is full the core stalls. Its operands are checked in the engine. -/
def Obligations.MatrixIssue : Prop :=
  ∀ (s : State) (c : Nat) (slot part mx opn rnd sat : Bool) (tile : BitVec 3) (fmt sub : BitVec 4) (sa sb : BitVec 5), canIssue s c →
    let k := coreOf s c
    let v := sRead k sa.toNat
    let queued (i : Instr) (o : W32 → MatOp) : Prop := ∀ word, coreWord i = some word → fetched k = word →
      exec i s = if k.queue.length < 16 then .next (issued s c { k with pc := k.pc + 1, queue := k.queue ++ [o word] }) else .next s
    (fmt.toNat ≤ 10 → queued (.mload c slot part fmt mx sa sb 0) (fun word => .load
      { slot := b2n slot, part := b2n part, fmt := fmt.toNat, mx := mx, operand := v, t := (sRead k sb.toNat).setWidth 32, pc := k.pc, word := word })) ∧
    queued (.mmac c tile slot opn sa sub 0) (fun word => .mac
      { tile := tile.toNat, slot := b2n slot, opens := opn, operand := v, sub := sub.toNat, pc := k.pc, word := word }) ∧
    (fmt.toNat ≤ 4 → queued (.mstore c tile fmt rnd sat sa 0) (fun word => .store
      { tile := tile.toNat, fmt := fmt.toNat, rtz := rnd, sat := sat, operand := v, pc := k.pc, word := word })) ∧
    queued (.mscale c tile sa 0) (fun word => .scale
      { tile := tile.toNat, t := if sa = 0 then none else some (v.setWidth 32), pc := k.pc, word := word })

/-- R43, R44, R53–R55, R61, R65, R73–R79: the engine finishes the oldest instruction, or an MLOAD behind the one MMAC that runs on the other slot. MMAC
with OPEN starts a reduction and counts its chunk, without OPEN it goes on with the open one, whose T is that of its first LG4 slot; a chunk of a
one-chunk reduction leaves chunk_sum of every element of its area in the tile, and the first of a longer one leaves it in the lowest slot of the node
stack. MSTORE writes each element of the tile converted once, MSCALE multiplies each element by T with one rounding, or by the T recorded with the
reduction where its register is s0, and MLOAD fills its part, with its T for LG4. -/
def Obligations.MatrixComplete : Prop :=
  ∀ (s : State) (c : Nat), ((coreOf s c).mode = .running ∨ (coreOf s c).mode = .draining) → (coreOf s c).blocked = .none →
    let k := coreOf s c
    (∀ (o : MacOp) (rest : List MatOp) (a b : MxPart), k.queue = .mac o :: rest →
      tabGet {} k.parts (2 * o.slot) = a → tabGet {} k.parts (2 * o.slot + 1) = b → a.valid = true → b.valid = true → pairOk a.fmt a.mx b.fmt b.mx = true →
      let cov := covOf (if a.fmt = fLG4 then b.fmt else a.fmt)
      let v := o.operand.toNat
      let element (i j : Nat) : W32 := BitVec.ofNat 32 (chunkElem (runVals a i) (runVals b j)).1
      let row (i : Nat) : Nat := covRows cov * (o.sub / covAcross cov) + i
      let col (j : Nat) : Nat := covCols cov * (o.sub % covAcross cov) + j
      o.sub < covSubs cov →
      (o.opens = true → bits v 63 50 = 0 → bitOf v 15 = false → 1 ≤ bits v 31 16 → bits v 31 16 ≤ 32768 →
        bits v 14 0 % 2 ^ stackDepth (bits v 31 16) = 0 → bits v 14 0 + bits v 31 16 ≤ 32768 →
        bits v 49 32 % 4096 = 0 → bits v 49 32 + stackDepth (bits v 31 16) * 8192 ≤ 0x40000 →
        (1 < bits v 31 16 → localPoisoned k (bits v 49 32) (stackDepth (bits v 31 16) * 8192) = false) → ∃ t,
          exec (.matrixChunkSummed c) s = .next t ∧ onlyCore s t c ∧ (coreOf t c).queue = rest ∧
          (let d := tabGet {} (coreOf t c).descs o.tile
           d.cov = cov ∧ d.s = bits v 14 0 ∧ d.m = bits v 31 16 ∧ d.base = bits v 49 32 ∧ d.t = slotT a b ∧
           (∀ q, tabGet 0 d.count q = if q = o.sub then 1 else 0) ∧ d.opn = !closed d) ∧
          (bits v 31 16 = 1 → (coreOf t c).lmem = k.lmem ∧ ∀ i j, i < covRows cov → j < covCols cov →
            tabGet 0 (coreOf t c).tiles (2048 * o.tile + 64 * row i + col j) = element i j) ∧
          (1 < bits v 31 16 → ∀ i j, i < covRows cov → j < covCols cov →
            nodeWord (coreOf t c) (bits v 49 32) 0 (row i) (col j) = (element i j).toNat)) ∧
      ∀ d : TileDesc, tabGet {} k.descs o.tile = d → o.opens = false → d.opn = true → d.cov = cov → tabGet 0 d.count o.sub < d.m →
        ((slotT a b).isSome = true → d.t.isSome = true → slotT a b = d.t) → (1 < d.m → localPoisoned k d.base (stackDepth d.m * 8192) = false) → ∃ t,
          exec (.matrixChunkSummed c) s = .next t ∧ onlyCore s t c ∧ (coreOf t c).queue = rest ∧
          let e := tabGet {} (coreOf t c).descs o.tile
          e.cov = d.cov ∧ e.s = d.s ∧ e.m = d.m ∧ e.base = d.base ∧ e.t = (if d.t.isSome then d.t else slotT a b) ∧
          (∀ q, tabGet 0 e.count q = if q = o.sub then tabGet 0 d.count q + 1 else tabGet 0 d.count q) ∧ e.opn = !closed e) ∧
    (∀ (o : LoadOp) (pre rest : List MatOp), k.queue = pre ++ .load o :: rest → (pre = [] ∨ ∃ m, pre = [.mac m] ∧ m.slot ≠ o.slot) →
      let v := o.operand.toNat
      let n := partRuns o.fmt o.part
      let run (base i len : Nat) : List Byte := tabBytes k.lmem (base + i) len
      v < 2 ^ 54 → bits v 17 0 % 64 = 0 → bits v 53 36 % 64 = 0 → (o.fmt = fLG4 → o.mx = true ∧ scaleOk o.t.toNat = true) →
      bits v 17 0 + (n - 1) * bits v 53 36 + runBytes o.fmt ≤ 0x40000 →
      (o.mx = true → bits v 35 18 % 64 = 0 ∧ bits v 35 18 + 16 * (n - 1) + 16 ≤ 0x40000) →
      loadPoisoned k o = false → o.olds = [] → ∃ t,
        exec (.matrixInstructionComplete c) s = .next t ∧ t = { s with cores := t.cores, draws := s.draws + 1 } ∧
        (∀ d, d ≠ c → coreOf t d = coreOf s d) ∧ (coreOf t c).queue = pre ++ rest ∧ (coreOf t c).lmem = k.lmem ∧ (coreOf t c).tiles = k.tiles ∧
        tabGet {} (coreOf t c).parts (2 * o.slot + o.part) =
          { valid := true, fmt := o.fmt, mx := o.mx, t := if o.fmt = fLG4 then o.t else 0x3F800000#32
            elems := (List.range n).flatMap (fun i => run (bits v 17 0) (i * bits v 53 36) (runBytes o.fmt))
            scales := if o.mx then (List.range n).flatMap (fun i => run (bits v 35 18) (16 * i) 16) else [] }) ∧
    (∀ (o : ScaleOp) (rest : List MatOp), k.queue = .scale o :: rest → (tabGet {} k.descs o.tile).opn = false → ∃ t,
      exec (.matrixInstructionComplete c) s = .next t ∧ onlyCore s t c ∧ (coreOf t c).queue = rest ∧ (coreOf t c).lmem = k.lmem ∧
      let x : W32 := o.t.getD ((tabGet {} k.descs o.tile).t.getD 0x3F800000#32)
      ∀ i, i < 2048 → tabGet 0 (coreOf t c).tiles (2048 * o.tile + i) = BitVec.ofNat 32 (fmul fFP32 (tabGet 0 k.tiles (2048 * o.tile + i)).toNat x.toNat).1) ∧
    ∀ (o : StoreOp) (rest : List MatOp), k.queue = .store o :: rest → (tabGet {} k.descs o.tile).opn = false → o.fmt ≤ 4 →
      let base := bits o.operand.toNat 17 0
      let stride := bits o.operand.toNat 35 18
      base % 64 = 0 → stride % 64 = 0 → base + 31 * stride + 8 * fmtBits o.fmt ≤ 0x40000 → ∃ t,
      exec (.matrixInstructionComplete c) s = .next t ∧ onlyCore s t c ∧ (coreOf t c).queue = rest ∧ (coreOf t c).tiles = k.tiles ∧
      (8 * fmtBits o.fmt ≤ stride → ∀ i, i < 32 → tabBytes (coreOf t c).lmem (base + i * stride) (8 * fmtBits o.fmt) =
        packCodes (fmtBits o.fmt) ((List.range 64).map (fun j =>
          let y := (tabGet 0 k.tiles (2048 * o.tile + 64 * i + j)).toNat
          if o.fmt = fFP32 then y else (toElem o.fmt o.rtz o.sat (decodeFloat fFP32 y)).1))) ∧
      ∀ a, (∀ i, i < 32 → a < base + i * stride ∨ base + i * stride + 8 * fmtBits o.fmt ≤ a) →
        tabGet 0#8 (coreOf t c).lmem a = tabGet 0#8 k.lmem a

/-- R81, R85, R97–R103, R107: the message instructions with operands in order. SEND, PUT and GET read their data, enter the core's list and let it
go on, and stall while the list is full; RECV takes the oldest matching message into its buffer or blocks, and what waits for the task then moves up;
WAITMSG gives the ready channels or blocks; one that would block stops at once for a pending pre-emption; FENCEOP completes when its classes have and
blocks otherwise. -/
def Obligations.MessageIssue : Prop :=
  ∀ (s : State) (c : Nat) (rd ra rb : BitVec 5), canIssue s c →
    let k := coreOf s c
    let v := (sRead k ra.toNat).toNat
    let w := (sRead k rb.toNat).toNat
    let x := launchOf s k.part k.launch
    let blocks (b : Blocked) : Core := if k.preemptReq then { k with mode := .draining, cause := 0 } else { k with blocked := b }
    let done (i : Instr) (k' : Core) : Prop := atPc s c i → exec i s = .next (issued s c k')
    (k.sends.length < 8 → v < 2 ^ 36 → w < 2 ^ 31 → bits w 17 0 % 64 = 0 → 1 ≤ bits w 30 18 → bits w 30 18 ≤ 4096 →
      (bits v 31 0 < 2 ^ 31 → bits v 31 0 < gridSize x) → (2 ^ 31 ≤ bits v 31 0 → (collOf s k.part (bits v 31 0 - 2 ^ 31)).registered = true) →
      bits w 17 0 + bits w 30 18 ≤ 0x40000 → localPoisoned k (bits w 17 0) (bits w 30 18) = false →
      let key := bits v 31 0 * 16 + bits v 35 32
      done (.send c 0 ra rb 0 0) { k with
        pc := k.pc + 1, nextId := k.nextId + 1
        cseq := tabSet 0 k.cseq key ((tabGet 0 k.cseq key + 1) % 65536)
        sends := k.sends ++ [{ sid := k.nextId, since := s.pwr.meridian, msg :=
          { src := k.task, dst := bits v 31 0, chan := bits v 35 32, cseq := tabGet 0 k.cseq key, payload := tabBytes k.lmem (bits w 17 0) (bits w 30 18) } }] }) ∧
    (8 ≤ k.sends.length → exec (.send c rd ra rb 0 0) s = .next s) ∧
    (∀ write : Bool, k.xfers.length < 16 → v < 2 ^ 52 → v % 64 = 0 → w < 2 ^ 35 → bits w 17 0 % 64 = 0 → bits w 34 18 % 64 = 0 →
      64 ≤ bits w 34 18 → bits w 34 18 ≤ 65536 → bits w 17 0 + bits w 34 18 ≤ 0x40000 →
      (write = true → localPoisoned k (bits w 17 0) (bits w 34 18) = false) →
      let y : Xfer := { xid := k.nextId, write := write, va := v, lbase := bits w 17 0, len := bits w 34 18,
                        data := if write then tabBytes k.lmem (bits w 17 0) (bits w 34 18) else [], origin := c, graph := x.graph }
      done (if write then .put c 0 ra rb 0 0 else .get c 0 ra rb 0 0) { k with pc := k.pc + 1, nextId := k.nextId + 1, xfers := k.xfers ++ [y] }) ∧
    (16 ≤ k.xfers.length → exec (.put c rd ra rb 0 0) s = .next s ∧ exec (.get c rd ra rb 0 0) s = .next s) ∧
    (∀ any : Bool, v < 2 ^ 36 → w < 2 ^ 31 → bits w 17 0 % 64 = 0 → 64 ≤ bits w 30 18 → bits w 30 18 ≤ 4096 →
      (any = false → bits v 31 0 < 2 ^ 31 → bits v 31 0 < gridSize x) → bits w 17 0 + bits w 30 18 ≤ 0x40000 →
      let i : Instr := .recv c rd ra rb (if any then 0x80 else 0) 0
      let wanted (m : Msg) : Prop := m.chan = bits v 35 32 ∧ (any = true ∨ m.src = bits v 31 0)
      -- what RECV leaves, before the messages that wait for this task move into its inbox
      let leaves (k' : Core) : Prop := atPc s c i →
        exec i s = .next (placeWaiting (drainFor (issued s c k') c) c) ∧
        ((∀ m ∈ x.spill, m.dst ≠ k.task) → x.early = [] → (k.awaitFwd = true → (tabGet {} x.tasks k.task).held = []) → exec i s = .next (issued s c k'))
      ((∀ m ∈ k.inbox, ¬ wanted m) →
        leaves (blocks (.recv rd.toNat (bits v 31 0) (bits v 35 32) any (bits w 17 0) (bits w 30 18) s.pwr.meridian))) ∧
      ∀ (pre : List Msg) (m : Msg) (rest : List Msg), k.inbox = pre ++ m :: rest → (∀ x ∈ pre, ¬ wanted x) → wanted m →
        m.payload.length ≤ bits w 30 18 → nodeProtected k (bits w 17 0) m.payload.length = false → ∃ k' : Core,
          leaves k' ∧ k'.inbox = pre ++ rest ∧ k'.pc = k.pc + 1 ∧
          (rd ≠ 0 → sRead k' rd.toNat = BitVec.ofNat 64 (m.src % 2 ^ 32 + m.chan % 16 * 2 ^ 32 + m.payload.length * 2 ^ 36)) ∧
          (∀ j, j < m.payload.length → tabGet 0#8 k'.lmem (bits w 17 0 + j) = m.payload.getD j 0#8) ∧
          ∀ j, j < bits w 17 0 ∨ bits w 17 0 + m.payload.length ≤ j → tabGet 0#8 k'.lmem j = tabGet 0#8 k.lmem j) ∧
    (v < 2 ^ 16 →
      done (.waitmsg c rd ra rb 0 0) (if readyMask k v = 0 then blocks (.waitmsg rd.toNat v w s.pwr.meridian)
        else nextPc (sWrite k rd.toNat (BitVec.ofNat 64 (readyMask k v))))) ∧
    (∀ m st g x : Bool, (m || st || g || x) = true →
      done (.fenceop c m st g x 0) (if (m = true → k.queue = []) ∧ (g = true → k.xfers = []) ∧ (x = true → k.sends = [])
        then nextPc k else { k with blocked := .fence m st g x }))

/-- R83, R85, R105, R107: BAR records the task at its barrier, and tells the other members in its phase; the core blocks until as many tasks as its count
have arrived, or stops at once for a pending pre-emption; the last one releases every core that waits, and one whose arrival was counted before passes.
END waits for the core's own work, then frees the core and marks the task DONE; leftover messages are counted. -/
def Obligations.BarAndEnd : Prop :=
  ∀ (s : State) (c : Nat) (ra rb : BitVec 5), canIssue s c →
    let k := coreOf s c
    let v := (sRead k ra.toNat).toNat
    let w := (sRead k rb.toNat).toNat
    let l := launchOf s k.part k.launch
    let bar := tabGet {} l.bars v
    (atPc s c (.bar c 0 ra rb 0 0) → v < 8 → 2 ≤ w → w < 2 ^ 32 → l.coresident = true → k.task ∉ bar.owed → k.task ∉ bar.arrived →
      (bar.arrived = [] ∨ bar.count = w) →
      (bar.arrived.length + 1 < w → ∃ t,
        exec (.bar c 0 ra rb 0 0) s = .next t ∧
        coreOf t c = (if k.preemptReq then { k with mode := .draining, cause := 0 } else { k with blocked := .bar v w s.pwr.meridian }) ∧
        (∀ d, d ≠ c → coreOf t d = coreOf s d) ∧
        tabGet {} (launchOf t k.part k.launch).bars v = { bar with count := w, arrived := bar.arrived ++ [k.task] } ∧
        t.fab.out.length = s.fab.out.length + (otherMembers s k.part).length) ∧
      (bar.arrived.length + 1 = w → k.preemptReq = false → ∃ t,
        exec (.bar c 0 ra rb 0 0) s = .next t ∧ coreOf t c = { k with pc := k.pc + 1 } ∧
        (∀ d, d ≠ c → (coreOf s d).mode = .running → (coreOf s d).part = k.part → (coreOf s d).launch = k.launch →
          (∃ n h, (coreOf s d).blocked = .bar v n h) → coreOf t d = { coreOf s d with pc := (coreOf s d).pc + 1, blocked := .none }) ∧
        (tabGet {} (launchOf t k.part k.launch).bars v).phase = bar.phase + 1 ∧
        (bar.ahead = [] → (tabGet {} (launchOf t k.part k.launch).bars v).arrived = [])) ∧
      (bar.arrived.length + 1 = w → k.preemptReq = true → (∀ d, d ≠ c → (coreOf s d).mode ≠ .running ∨ (coreOf s d).task ≠ k.task) → ∃ t,
        exec (.bar c 0 ra rb 0 0) s = .next t ∧ coreOf t c = { k with mode := .draining, cause := 0 } ∧
        (tabGet {} (launchOf t k.part k.launch).bars v).phase = bar.phase + 1 ∧
        (l.lo ≤ k.task → k.task < l.hi → k.task ∈ (tabGet {} (launchOf t k.part k.launch).bars v).owed))) ∧
    (atPc s c (.bar c 0 ra rb 0 0) → v < 8 → 2 ≤ w → w < 2 ^ 32 → l.coresident = true → k.task ∈ bar.owed → ∃ t,
      exec (.bar c 0 ra rb 0 0) s = .next t ∧ coreOf t c = { k with pc := k.pc + 1 } ∧
      k.task ∉ (tabGet {} (launchOf t k.part k.launch).bars v).owed) ∧
    (atPc s c (.endTask c 0) → k.queue = [] → k.sends = [] → k.xfers = [] → ∃ t,
        exec (.endTask c 0) s = .next t ∧ (coreOf t c).mode = .idle ∧ (coreOf t c).lmem = k.lmem ∧
        (l.next < l.hi →
          (tabGet {} (launchOf t k.part k.launch).tasks k.task).state = .done ∧
          (launchOf t k.part k.launch).discarded = l.discarded + (k.inbox.length + k.direct.length))) ∧
    (atPc s c (.endTask c 0) → (k.queue ≠ [] ∨ k.sends ≠ [] ∨ k.xfers ≠ []) → exec (.endTask c 0) s = .next (issued s c { k with blocked := .ending }))

/-- R93–R101, R107, R109: a SEND whose space is there is accepted and flies to its task, and one to a DONE task faults its sender; one to a task of another
module goes there, and its response accepts it; a delivered message is placed by its task's state and wakes a core that waits for it, or goes on to the
module that runs its task; WAITMSG's limit gives zero; a router takes a map entry; an arrival from another module counts at its barrier;
the end of forwarding puts the messages that came directly behind those that were forwarded. -/
def Obligations.MessageProgress : Prop :=
  ∀ (s : State) (c : Nat),
    let k := coreOf s c
    let x := launchOf s k.part k.launch
    (∀ (o : OutSend) (rest : List OutSend), k.mode = .running → k.blocked = .none → k.sends = o :: rest → (∀ y ∈ rest, y.sid ≠ o.sid) →
      o.sent = false → o.msg.dst < 2 ^ 31 →
      (x.lo ≤ o.msg.dst → o.msg.dst < x.hi → (tabGet {} x.tasks o.msg.dst).state ≠ .done → spaceFor s k.part k.launch o.msg = true → ∃ t,
        exec (.sendAccepted c o.sid) s = .next t ∧ coreOf t c = { k with sends := rest } ∧ (∀ d, d ≠ c → coreOf t d = coreOf s d) ∧
        launchOf t k.part k.launch = { x with flight := x.flight ++ [o.msg] } ∧ t.mem = s.mem) ∧
      (x.lo ≤ o.msg.dst → o.msg.dst < x.hi → (tabGet {} x.tasks o.msg.dst).state = .done → ∃ t,
        exec (.sendAccepted c o.sid) s = .next t ∧ faulted s t c 7) ∧
      (∀ h : Member, (o.msg.dst < x.lo ∨ x.hi ≤ o.msg.dst) → homeMember (partOf s k.part).vd (gridSize x) o.msg.dst = some h → ∃ (t : State) (p : Packet),
        exec (.sendAccepted c o.sid) s = .next t ∧ coreOf t c = { k with sends := { o with sent := true } :: rest } ∧
        t.fab.out = s.fab.out ++ [p] ∧ p.kind = 0x01 ∧ p.dst = h.modId ∧ p.dtask = o.msg.dst ∧ p.cseq = o.msg.cseq ∧ p.payload = o.msg.payload)) ∧
    (∀ rd mask timeout since : Nat, k.mode = .running → k.blocked = .waitmsg rd mask timeout since → timeout ≠ 0 →
      exec (.waitmsgTimeout c) s = .next (modCore s c (fun k => { sWrite k rd 0 with pc := k.pc + 1, blocked := .none }))) ∧
    (∀ (n l : Nat) (m : Msg) (rest : List Msg), (partOf s n).launches = [(l, { launchOf s n l with flight := m :: rest })] →
      (launchOf s n l).live = true → m.dst < 2 ^ 31 →
      let y := launchOf s n l
      let go : Instr := .messageDeliver ⟨s.glb.moduleId, n⟩ m
      (∀ mid, forwardPlace s n l m.dst = some mid → ∃ (t : State) (p : Packet), exec go s = .next t ∧ t.fab.out = s.fab.out ++ [p] ∧
        p.dst = mid ∧ p.dtask = m.dst ∧ p.cseq = m.cseq ∧ p.payload = m.payload ∧ (launchOf t n l).flight = rest ∧ t.cores = s.cores) ∧
      (forwardPlace s n l m.dst = none →
        ((tabGet {} y.tasks m.dst).state = .pending → ∃ t, exec go s = .next t ∧
          (launchOf t n l).spill = y.spill ++ [m] ∧ (launchOf t n l).flight = rest ∧ t.cores = s.cores) ∧
        ((tabGet {} y.tasks m.dst).state = .moving → ∃ t, exec go s = .next t ∧
          (tabGet {} (launchOf t n l).tasks m.dst).held = (tabGet {} y.tasks m.dst).held ++ [m] ∧ t.cores = s.cores) ∧
        (∀ d, (tabGet {} y.tasks m.dst).state = .bound → (tabGet {} y.tasks m.dst).core = d →
          (∀ z ∈ y.spill, z.dst ≠ m.dst) → (coreOf s d).awaitFwd = false → (coreOf s d).blocked = .none → ∃ t,
            exec go s = .next t ∧ coreOf t d = { coreOf s d with inbox := (coreOf s d).inbox ++ [m] } ∧
            ∀ e, e ≠ d → coreOf t e = coreOf s e))) ∧
    (∀ router launch task place : Nat, router < 64 → (sliceOf s router).state = .assigned →
      (clusterOf s router).coreMap.length < 4096 → ∃ t, exec (.coreMapUpdate router launch task place) s = .next t ∧
        t = { s with clusters := t.clusters } ∧ (∀ e, e ≠ router → clusterOf t e = clusterOf s e) ∧
        tabGet 0 (clusterOf t router).coreMap (mapKey launch task) = place + 1 ∧
        ∀ q, q ≠ mapKey launch task → tabGet 0 (clusterOf t router).coreMap q = tabGet 0 (clusterOf s router).coreMap q) ∧
    (∀ n l b count task : Nat, (launchOf s n l).live = true → b < 8 → task ∉ (tabGet {} (launchOf s n l).bars b).arrived →
      ((tabGet {} (launchOf s n l).bars b).arrived = [] ∨ (tabGet {} (launchOf s n l).bars b).count = count) →
      (tabGet {} (launchOf s n l).bars b).arrived.length + 1 < count → ∃ t, exec (.barArrival n l b count task) s = .next t ∧
        t = { s with parts := t.parts } ∧ (∀ e, e ≠ n → partOf t e = partOf s e) ∧
        (tabGet {} (launchOf t n l).bars b).arrived = (tabGet {} (launchOf s n l).bars b).arrived ++ [task]) ∧
    (k.mode = .running → k.awaitFwd = true → k.blocked = .none → (tabGet {} x.tasks k.task).held = [] → (∀ m ∈ x.spill, m.dst ≠ k.task) → x.early = [] →
      ∃ t, exec (.forwardComplete c) s = .next t ∧ coreOf t c = { k with inbox := k.inbox ++ k.direct, direct := [], awaitFwd := false } ∧
        ∀ d, d ≠ c → coreOf t d = coreOf s d)

/-- R82, R85–R87, R91, R95, R106, R126: the life of a task on its core: bound to the first free core with its program, arguments and
registers; asked to give way, stopped, drained and saved, its messages held at its old router and its record put into the context save area; restored to a free core with every register
and the saved extent of local memory; a good reload of its image changes nothing it can see. -/
def Obligations.TaskLife : Prop :=
  ∀ (s : State) (c : Nat),
    let k := coreOf s c
    (∀ (n l : Nat) (ext img args : List Byte), (partOf s n).vd.used = true → ((partOf s n).ctx.state = .active ∨ (partOf s n).ctx.state = .recovering) →
      bindLaunch s n = some l → (idleCores s n).head? = some c → mapRoom s n = true →
      (launchOf s n l).spill = [] → (launchOf s n l).early = [] →
      let x := launchOf s n l
      -- the image is read unless the same image is resident, and the argument block is read, both translated for the dispatch engine
      imageFor (bindTranslate s n x) n c x ext = .ok img →
      readSpan (bindTranslate s n x) (dispatchOf s n x) n x.args x.argLen (ext.drop (4 * x.progLen)) = .ok args →
      let block := (if x.descriptor = 0 then [] else natBytes 8 x.descriptor) ++ args
      ∃ t, exec (.taskBind n ext) s = .next t ∧
        (coreOf t c).mode = .running ∧ (coreOf t c).part = n ∧ (coreOf t c).launch = l ∧ (coreOf t c).task = x.next ∧
        (coreOf t c).pc = x.entry ∧ (coreOf t c).image = imageWords img ∧
        sRead (coreOf t c) 1 = BitVec.ofNat 64 block.length ∧ sRead (coreOf t c) 2 = BitVec.ofNat 64 x.next ∧
        (∀ r, 3 ≤ r → sRead (coreOf t c) r = 0) ∧
        (∀ j, tabGet 0#8 (coreOf t c).lmem j = block.getD j 0#8) ∧
        (launchOf t n l).next = x.next + 1 ∧
        tabGet {} (launchOf t n l).tasks x.next = { tabGet {} x.tasks x.next with state := .bound, core := c } ∧
        ∀ d, d ≠ c → coreOf t d = coreOf s d) ∧
    (k.mode = .running → exec (.preemptRequest c) s = .next (modCore s c (fun k => match k.blocked with
      | .recv .. | .waitmsg .. | .bar .. => { k with mode := .draining, cause := 0, blocked := .none, preemptReq := true }
      | _ => { k with preemptReq := true }))) ∧
    (k.mode = .running → k.preemptReq = true →
      exec (.preemptStopTimeout c) s = .next (modCore s c (fun k => { k with mode := .draining, cause := 0, blocked := .none }))) ∧
    (k.mode = .draining → k.queue = [] → ∃ t, exec (.matrixQueueDrained c) s = .next t ∧ coreOf t c = { k with mode := .saving, inbox := [], direct := [], awaitFwd := false } ∧
      (∀ d, d ≠ c → coreOf t d = coreOf s d) ∧ (tabGet {} (launchOf t k.part k.launch).tasks k.task).state = .moving ∧
      (tabGet {} (launchOf t k.part k.launch).tasks k.task).held =
        k.inbox ++ (tabGet {} (launchOf s k.part k.launch).tasks k.task).held ++ k.direct ++ (launchOf s k.part k.launch).spill.filter (fun m => m.dst == k.task)) ∧
    (k.mode = .saving → ∃ t, exec (.saveRecordWritten c) s = .next t ∧ (coreOf t c).mode = .idle ∧
      (∀ d, d ≠ c → coreOf t d = coreOf s d) ∧
      (∀ pa, freeSave (partOf s k.part) = some pa → pa % 128 = 0 → (∀ a, redirect s a = a) →
        recordAt t pa (recordSize (savedExtent k)) = saveBytes k (savedExtent k)) ∧
      ∃ r : SaveRec, (partOf t k.part).saves = (partOf s k.part).saves ++ [r] ∧ r.version = 1 ∧ r.task = k.task ∧ r.launch = k.launch ∧
        r.oldCore = c ∧ k.clive ≤ r.extent ∧
        r.place = freeSave (partOf s k.part) ∧ r.core = { k with mode := .idle, preemptReq := false, lmem := r.core.lmem, lpoison := r.core.lpoison } ∧
        r.core.lmem = k.lmem.filter (fun x => decide (x.1 < r.extent))) ∧
    (∀ (n : Nat) (r : SaveRec), (partOf s n).saves = [r] → (partOf s n).ctx.state ≠ .frozen → (idleCores s n).head? = some c →
      (recordVersion s r ≠ 1 → (partOf s n).ctx.state = .active → ∃ t, exec (.restore n r.launch r.task) s = .next t ∧ (partOf t n).ctx.state = .lost) ∧
      (recordVersion s r = 1 → mapRoom s n = true → (∀ y ∈ (recordCore s r).xfers, y.parked = none) → ∃ t u,
        exec (.restore n r.launch r.task) s = .next t ∧ t = drainFor u c ∧ coreOf u c = restoredCore (coreOf s c) r (recordCore s r) ∧
        (∀ j, j < r.extent → tabGet 0#8 (coreOf u c).lmem j = tabGet 0#8 (recordCore s r).lmem j) ∧
        (partOf u n).saves = [] ∧ (tabGet {} (launchOf u n r.launch).tasks r.task).state = .bound ∧
        (tabGet {} (launchOf u n r.launch).tasks r.task).core = c)) ∧
    exec (.programImageReload c true) s = .next s

/-- R102, R103, R109, R121, R122, R308, R349: a write that nothing refuses puts its bytes at their physical addresses and is answered OK, one of a line
that an earlier write of its unit has still to write waits, and a word that port 0 writes in the same cycle is answered COLLIDE and left for a retry; a
read inside one line gives the bytes there; the response takes a GET's bytes into local memory and ends the operation; a word that collided is
written by the retry. -/
def Obligations.Requests : Prop :=
  ∀ (s : State) (n va pa : Nat) (r : Range) (data : List Byte), (partOf s n).vd.used = true →
    (∀ m : Master, (∀ c, m ≠ .core c) → deviceSpan s n va data.length r pa → r.w = true → writeRefused s m n va data.length = none →
      (lineHeld s m va data.length = false → ∃ t,
        exec (.putWriteAtTarget m n va data []) s = .next t ∧ wroteSpan s t n pa data ∧
        t.resp = s.resp ++ [(unitCode m, va, .ok, [])] ∧ t.parts = s.parts ∧ t.cores = s.cores) ∧
      (lineHeld s m va data.length = true → ∃ t,
        exec (.putWriteAtTarget m n va data []) s = .next t ∧ t.mem = s.mem ∧ t.resp = s.resp ∧ t.parts = s.parts ∧ t.cores = s.cores)) ∧
    (∀ (m : Master) (p0 : Port0) (w cl o : Nat), (∀ c, m ≠ .core c) → portRange s n va = none → writeRefused s m n va data.length = none →
      lineHeld s m va data.length = false → data ≠ [] → wordsOf va data.length = [w] → port1Word s m n w = some (cl, o) → port0At p0 w = true →
      tabGet 0 (clusterOf s cl).hits (hitKey m o) < 16 → ∃ t,
        exec (.putWriteAtTarget m n va data p0) s = .next t ∧ t.resp = s.resp ++ [(unitCode m, va, .collide, [])] ∧
        t.retries = s.retries ++ [{ m := m, n := n, va := va, data := data, todo := [w], backoff := 4 }] ∧
        tabGet 0 (clusterOf t cl).hits (hitKey m o) = tabGet 0 (clusterOf s cl).hits (hitKey m o) + 1) ∧
    (∀ mid : Nat, deviceSpan s n va data.length r pa → r.w = true → writeRefused s (.remote mid) n va data.length = none →
      lineHeld s (.remote mid) va data.length = false → ∃ t,
      exec (.bulkWrite ⟨mid, n⟩ va data) s = .next t ∧ wroteSpan s t n pa data ∧
      t.resp = s.resp ++ [(unitCode (.remote mid), va, .ok, [])] ∧ t.parts = s.parts ∧ t.cores = s.cores) ∧
    (∀ (c : Nat) (x : Xfer), deviceSpan s n va data.length r pa → r.w = true → writeRefused s (.core c) n va data.length = none →
      lineHeld s (.core c) va data.length = false →
      readyXfer s c true va (fun y => y.data == data) = some x → x.len = data.length → taskShut (partOf s n) x.graph va x.len true = false → ∃ u,
      exec (.putWriteAtTarget (.core c) n va data []) s =
        .next (modXfer u c x.xid (fun y => { y with performed := true, sent := false, answer := some .ok })) ∧
      wroteSpan s u n pa data ∧ u.parts = s.parts ∧ u.cores = s.cores) ∧
    (∀ (m : Master) (len tag : Nat), deviceSpan s n va len r pa → r.r = true → len ≤ 128 - va % 128 → masterShut (partOf s n) m va = false →
      checkAccess s m n pa false = .ok → memPoisoned s pa len = false →
      (isStack pa = true → (lineMeta s (pa / 128)).getLsbD 1 = true → accessSecure s m n = true) →
      ((∀ c, m ≠ .core c) → ∃ t, exec (.getReadAtTarget m n va len [] []) s = .next t ∧
        t.resp = s.resp ++ [(unitCode m, va, .ok, tabBytes s.mem pa len)] ∧ memKept s t (fun _ => False) ∧ t.parts = s.parts) ∧
      (∀ mid, m = .remote mid → ∃ t, exec (.bulkRead ⟨mid, n⟩ ⟨va, len, tag⟩ [] []) s = .next t ∧
        t.resp = s.resp ++ [(unitCode m, tag, .ok, tabBytes s.mem pa len)] ∧ memKept s t (fun _ => False) ∧ t.parts = s.parts) ∧
      ∀ (c : Nat) (x : Xfer), m = .core c → readyXfer s c false va (fun y => y.len == len) = some x →
        taskShut (partOf s n) x.graph va x.len false = false → ∃ u,
        exec (.getReadAtTarget m n va len [] []) s =
          .next (modXfer u c x.xid (fun y => { y with performed := true, answer := some .ok, data := tabBytes s.mem pa len })) ∧
        memKept s u (fun _ => False) ∧ u.parts = s.parts ∧ u.cores = s.cores) ∧
    (∀ (c k d : Nat) (x : Xfer), holderOf s c k = .core d → xferOf s c k = some x →
      (x.answer = some .ok ∨ (x.answer = none ∧ x.sent = true)) → x.parked = none →
      (coreOf s d).mode = .running → (coreOf s d).blocked = .none →
      let bs := if x.answer.isSome then x.data else mergeGot x.got data
      (x.write = false → x.len ≤ bs.length ∧ nodeProtected (coreOf s d) x.lbase x.len = false) → ∃ t,
      exec (.response c k .ok data) s = .next t ∧
      (coreOf t d).xfers = dropXfer x.origin x.xid (coreOf s d).xfers ∧ (coreOf t d).pc = (coreOf s d).pc ∧ (∀ e, e ≠ d → coreOf t e = coreOf s e) ∧
      ∀ j, tabGet 0#8 (coreOf t d).lmem j =
        if x.write = false ∧ x.lbase ≤ j ∧ j < x.lbase + x.len then bs.getD (j - x.lbase) 0#8 else tabGet 0#8 (coreOf s d).lmem j) ∧
    ∀ (c k w : Nat) (x : Xfer), c < 1024 → xferOf s c k = some x → x.backoff ≠ 0 → x.todo = [w] → x.answer = none →
      (holderCore s (holderOf s c k)).part = n → writeRefused s (.core c) n x.va x.len = none → leavesModule s n x.va x.len true = false →
      deviceSpan s n (wordPart x.va x.data w).1 (wordPart x.va x.data w).2.length r pa → r.w = true → ∃ u,
      exec (.collideRetry c k []) s =
        .next (modXfer u c k (fun y => { y with performed := true, sent := false, answer := some .ok, todo := [], collides := 0, backoff := 0 })) ∧
      wroteSpan s u n pa (wordPart x.va x.data w).2 ∧ u.parts = s.parts ∧ u.cores = s.cores

/-- First: R69, R70: the word of an instruction decodes to that instruction and to no other.
Second: R65, R67, R70, R73–R76, R78, R88: an illegal word, a word of no instruction, a PC outside the image, an access outside local memory, a misaligned
one, a store into an open node stack, an operand that a message instruction does not allow, and a matrix instruction that the engine finds unfit stop
the task with their fault codes, and the context that ran it is lost. A command for an instruction that is not the one at the PC does nothing (log 2). -/
def Obligations.CoreFaults : Prop :=
  (∀ (i : Instr) (w : W32), coreWord i = some w → ∃ c, decodeCore c w = some i) ∧
  (∀ (c : Nat) (i : Instr) (w : W32), decodeCore c w = some i → coreWord i = some w) ∧
  ∀ (s : State) (c : Nat) (rd ra rb base : BitVec 5) (off : BitVec 13) (size pred : BitVec 3) (imm : BitVec 16),
    let k := coreOf s c
    let stops (i : Instr) (code : Nat) : Prop := ∃ t, exec i s = .next t ∧ faulted s t c code
    (canIssue s c →
      (pred ≠ 0 → ∀ i ∈ [Instr.add c rd ra rb pred, .sub c rd ra rb pred, .mul c rd ra rb pred, .div c rd ra rb pred, .max c rd ra rb pred],
        atPc s c i → stops i 1) ∧
      (2 < imm.toNat → ∀ i ∈ [Instr.mfs c rd ra imm, .mts c rd ra imm], atPc s c i → stops i 1) ∧
      (3 < size.toNat → ∀ i ∈ [Instr.ld c rd base off size, .ldu c rd base off size, .st c rd base off size], atPc s c i → stops i 1) ∧
      (∀ n : Nat, size.toNat ≤ 3 → n = 2 ^ size.toNat → ∀ i ∈ [Instr.ld c rd base off size, .ldu c rd base off size, .st c rd base off size],
        let a := effAddr k base.toNat off n
        atPc s c i →
          (a < 0 ∨ 0x40000 < a + n → stops i 3) ∧
          (0 ≤ a → a + n ≤ 0x40000 → a % n ≠ 0 → stops i 4) ∧
          (∀ b : Nat, i = .st c rd base off size → a = b → b + n ≤ 0x40000 → b % n = 0 → nodeProtected k b n = true → stops i 6)) ∧
      (∀ i ∈ [Instr.put c rd ra rb 0 0, .get c rd ra rb 0 0], rd ≠ 0 → k.xfers.length < 16 → atPc s c i → stops i 7) ∧
      (∀ i ∈ [Instr.add c rd ra rb 0, .addi c rd ra imm, .beq c ra rb imm, .ld c rd base off size, .vld c rd base off pred],
        (decodeCore c (fetched k) = none → ¬ atPc s c i → stops i 1) ∧
        ((decodeCore c (fetched k)).isSome = true → ¬ atPc s c i → exec i s = .next s))) ∧
    (k.mode = .running → k.blocked = .none → (k.pc < 0 ∨ k.image.length ≤ k.pc) →
      ∀ i ∈ [Instr.add c rd ra rb 0, .addi c rd ra imm, .beq c ra rb imm, .ld c rd base off size, .vld c rd base off pred], stops i 2) ∧
    (coreReady k = false →
      ∀ i ∈ [Instr.add c rd ra rb pred, .addi c rd ra imm, .beq c ra rb imm, .ld c rd base off size, .vld c rd base off pred], exec i s = .next s) ∧
    ((k.mode = .running ∨ k.mode = .draining) →
      (∀ (o : StoreOp) (rest : List MatOp), k.queue = .store o :: rest → (tabGet {} k.descs o.tile).opn = true → stops (.matrixInstructionComplete c) 5) ∧
      (∀ (o : ScaleOp) (rest : List MatOp), k.queue = .scale o :: rest → (tabGet {} k.descs o.tile).opn = true → stops (.matrixInstructionComplete c) 5) ∧
      (∀ (o : LoadOp) (rest : List MatOp), k.queue = .load o :: rest → o.operand.toNat < 2 ^ 54 →
        let b := bits o.operand.toNat 17 0
        let stride := bits o.operand.toNat 53 36
        (b % 64 ≠ 0 → stops (.matrixInstructionComplete c) 4) ∧
        (o.mx = false → b % 64 = 0 → stride % 64 = 0 → o.fmt = fLG4 → stops (.matrixInstructionComplete c) 5) ∧
        (o.mx = false → b % 64 = 0 → stride % 64 = 0 → o.fmt ≠ fLG4 →
          0x40000 < b + (partRuns o.fmt o.part - 1) * stride + runBytes o.fmt → stops (.matrixInstructionComplete c) 3)) ∧
      ∀ (o : MacOp) (rest : List MatOp) (a b : MxPart), k.queue = .mac o :: rest →
        tabGet {} k.parts (2 * o.slot) = a → tabGet {} k.parts (2 * o.slot + 1) = b →
        pairOk a.fmt a.mx b.fmt b.mx = false ∨ covSubs (covOf (if a.fmt = fLG4 then b.fmt else a.fmt)) ≤ o.sub ∨
          (o.opens = false ∧ (tabGet {} k.descs o.tile).opn = false) ∨ (o.opens = true ∧ bits o.operand.toNat 31 16 = 0) →
        stops (.matrixChunkSummed c) 5)

/-- R62, R63, R70: the frame of the scalar instructions and the immediates: another register, the vector, predicate and tile registers, the flags,
local memory, module memory, the other cores and everything else are as before; only the event counters move beside them. -/
def Obligations.CoreFrame : Prop :=
  ∀ (s : State) (c : Nat) (rd ra rb : BitVec 5) (imm : BitVec 16) (k' : Core), canIssue s c →
    (onlyCore s (issued s c k') c ∧ coreOf (issued s c k') c = k' ∧ (issued s c k').mem = s.mem ∧ (issued s c k').pending = s.pending) ∧
    ∀ i ∈ [Instr.add c rd ra rb 0, .sub c rd ra rb 0, .and c rd ra rb 0, .or c rd ra rb 0, .xor c rd ra rb 0, .shl c rd ra rb 0,
           .shr c rd ra rb 0, .sra c rd ra rb 0, .mul c rd ra rb 0, .mulh c rd ra rb 0, .div c rd ra rb 0, .rem c rd ra rb 0,
           .slt c rd ra rb 0, .sltu c rd ra rb 0, .min c rd ra rb 0, .max c rd ra rb 0, .addi c rd ra imm, .lui c rd ra imm,
           .andi c rd ra imm, .ori c rd ra imm, .slti c rd ra imm],
      atPc s c i → ∃ t, exec i s = .next t ∧ onlyCore s t c ∧
        coreOf t c = { coreOf s c with pc := (coreOf s c).pc + 1, sreg := (coreOf t c).sreg } ∧
        (∀ r, r ≠ rd.toNat → sRead (coreOf t c) r = sRead (coreOf s c) r) ∧ sRead (coreOf t c) 0 = 0

/-- First: R221, R223, R224, R327: a doorbell on the function's active port moves the tail or the head when it moves on and stays within the ring;
one by the other port, or one that does not, changes no queue and sets DOORBELL_LOG.
Second: R223, R231, R238: a complete command's record goes to its place in the completion ring and is counted, the command leaves its queue, and its
signal takes effect. Shown for a command with neither signal nor interrupt, done well, on a write log with room. -/
def Obligations.DoorbellsAndCompletions : Prop :=
  (∀ (s : State) (f q port : Nat) (v : W32),
     let x := queueOf s f q
     let out := (v.toNat + 2 ^ 32 - x.fetched) % 2 ^ 32
     let step := (v.toNat + 2 ^ 32 - x.sqTail) % 2 ^ 32
     let gone := (v.toNat + 2 ^ 32 - x.cqHead) % 2 ^ 32
     x.created = true → x.destroying = false → (f < 64 → (partOf s f).ctx.state ≠ .destroying) →
       ((f = 64 ∨ port = b2n (partOf s f).vf.active) →
         (step < 2 ^ 31 → out ≤ 2 ^ x.sqLog2 → ∃ t, exec (.sqTailWrite f q port v) s = .next t ∧ onlyQueue s t f q ∧
           queueOf t f q = { x with sqTail := v.toNat }) ∧
         (2 ^ 31 ≤ step ∨ 2 ^ x.sqLog2 < out → ∃ t, exec (.sqTailWrite f q port v) s = .next t ∧ t.parts = s.parts ∧ t.cq.event.testBit 1 = true) ∧
         (gone ≤ (x.written + 2 ^ 32 - x.cqHead) % 2 ^ 32 → ∃ t, exec (.cqHeadWrite f q port v) s = .next t ∧ onlyQueue s t f q ∧
           queueOf t f q = { x with cqHead := v.toNat }) ∧
         ((x.written + 2 ^ 32 - x.cqHead) % 2 ^ 32 < gone → ∃ t, exec (.cqHeadWrite f q port v) s = .next t ∧ t.parts = s.parts ∧
           t.cq.event.testBit 1 = true)) ∧
       (f ≠ 64 → port ≠ b2n (partOf s f).vf.active → ∀ i ∈ [Instr.sqTailWrite f q port v, .cqHeadWrite f q port v],
         ∃ t, exec i s = .next t ∧ t.parts = s.parts ∧ t.cq.event.testBit 1 = true)) ∧
  (∀ (s : State) (f q : Nat) (c : Cmd) (rest : List Cmd),
     let x := queueOf s f q
     let i := portFor s f
     x.cmds = c :: rest → (∀ d ∈ rest, d.seq ≠ c.seq) → c.phase = .done → x.destroying = false → cqRoom x = true → cmdNocomp c = false →
     cmdSignal c = false → c.opc ≠ 3 → cmdIrq c = false → goodStatus c.status = true →
     (∀ n, targetPart s f c = some n → (partOf s n).ctx.state ≠ .lost ∧ (partOf s n).ctx.state ≠ .recovering) →
     (portOf s i).waiting = [] → logBytes (portOf s i).log + 32 ≤ 0x40000 → ∃ t,
       exec (.completionRecord f q c.seq) s = .next t ∧
       t.hostOut = s.hostOut ++ [hostWrite s f (x.cqBase + 32 * (x.written % 2 ^ x.cqLog2)) (recordOf s x q c false)] ∧
       (recordOf s x q c false).length = 32 ∧
       queueOf t f q = { x with cmds := rest, written := (x.written + 1) % 2 ^ 32 } ∧
       (∀ r, r ≠ q → queueOf t f r = queueOf s f r) ∧ t.msix = s.msix ∧ t.mem = s.mem)

/-- R219–R223, R227, R229, R237, R242: PACKET_FETCH takes a packet when its queue's turn has come: one that passes its checks joins its queue, one that fails
them completes with the status of the first check it fails, and so does one of a LOST context or one left from before a recovery; COMMAND_START starts a command when nothing before it
holds it, its fence wait is satisfied and its engine's round comes to it, and ends one of a context that is lost or gone; COMMAND_TIMEOUT completes it with
S_TIMEOUT and loses the context. -/
def Obligations.CommandLife : Prop :=
  ∀ (s : State) (f q seq : Nat),
    let x := queueOf s f q
    (∀ (w : List W64) (n : Nat), n = pktLen w + 1 → w.length = 2 * n → waitsForFetch s f q = true → fetchTurn s f q = true →
      n ≤ (x.sqTail + 2 ^ 32 - x.fetched) % 2 ^ 32 →
      let after (c : Cmd) (k : Nat) : Prop := ∃ t, exec (.packetFetch f q w) s = .next t ∧
        t = { s with parts := t.parts, ports := t.ports } ∧ (∀ m, m ≠ f → partOf t m = partOf s m) ∧
        partOf t f = { partOf s f with queues := (partOf t f).queues } ∧ (∀ r, r ≠ q → queueOf t f r = queueOf s f r) ∧
        queueOf t f q = { x with cmds := x.cmds ++ [c], fetched := (x.fetched + k) % 2 ^ 32, expSeq := (x.expSeq + 1) % 2 ^ 32, stale := x.stale - k }
      let fs := (partOf s f).fences
      (2 ^ x.sqLog2 < x.fetched % 2 ^ x.sqLog2 + n → after (rejectedCmd fs (cmdOf x w) false 0x15 0) (2 ^ x.sqLog2 - x.fetched % 2 ^ x.sqLog2)) ∧
      (x.fetched % 2 ^ x.sqLog2 + n ≤ 2 ^ x.sqLog2 →
        (pktSeq w ≠ x.expSeq → after (rejectedCmd fs (cmdOf x w) false 0x15 x.expSeq) n) ∧
        (pktSeq w = x.expSeq →
          (∀ st, contentCheck s f q w = some st → after (rejectedCmd fs (cmdOf x w) false st 0) n) ∧
          (contentCheck s f q w = none → fenceIndexOk fs w = false → after (rejectedCmd fs (cmdOf x w) true 0x15 0) n) ∧
          (contentCheck s f q w = none → fenceIndexOk fs w = true →
            after (if x.stale ≠ 0 ∨ (f < 64 ∧ (partOf s f).ctx.state = .lost) then { cmdOf x w with phase := .done, status := 0x11 } else cmdOf x w) n)))) ∧
    (∀ c : Cmd, findCmd s f q seq = some c → inTurn x c = true →
      (ctxSays s f c = .hold → exec (.commandStart f q seq) s = .next s) ∧
      (ctxSays s f c = .lost → ∃ t, exec (.commandStart f q seq) s = .next t ∧ completes s t f q seq 0x11 0) ∧
      (ctxSays s f c = .gone → ∃ t, exec (.commandStart f q seq) s = .next t ∧ completes s t f q seq 0x10 0) ∧
      (ctxSays s f c = .run →
        (cmdWait c = true → (fenceSeen s f c.fwait).getLsbD 63 = true → ∃ t, exec (.commandStart f q seq) s = .next t ∧ completes s t f q seq 0x10 0) ∧
        (cmdWait c = true → waitSatisfied (fenceSeen s f c.fwait) c.waitVal = false → exec (.commandStart f q seq) s = .next s) ∧
        ((cmdWait c = true → waitSatisfied (fenceSeen s f c.fwait) c.waitVal = true ∧ (fenceSeen s f c.fwait).getLsbD 63 = false) → startTurn s f q = true →
          ∃ t, exec (.commandStart f q seq) s = .next t ∧ t = { s with parts := t.parts } ∧
          ∀ g r, queueOf t g r = { queueOf s g r with
            starts := (queueOf t g r).starts
            cmds := if g = f ∧ r = q then x.cmds.map (fun d => if d.seq = seq then { d with phase := .started, begun := true, start := s.pwr.meridian } else d)
              else (queueOf s g r).cmds }))) ∧
    (∀ c : Cmd, findCmd s f q seq = some c → inTurn x c = false → exec (.commandStart f q seq) s = .next s) ∧
    ∀ c : Cmd, findCmd s f q seq = some c → c.begun = true → (c.opc = 2 → c.phase ≠ .started) → x.timeout ≠ 0 → f < 64 → (partOf s f).ctx.state = .active → ∃ t,
      exec (.commandTimeout f q seq) s = .next t ∧ (partOf t f).ctx.state = .lost ∧ (partOf t f).ctx.cause = 0x12 ∧
      ∃ d, findCmd t f q seq = some d ∧ d.phase = .done ∧ d.status = 0x12

/-- First: R233, R236–R239: NOP completes; WAIT completes at or after its value by serial arithmetic, and with S_ABORTED on ERROR; SIGNAL completes, and the
fence it names is set when its record is written: to a value that lies ahead of it, and to ERROR when the value is exactly half the range away; it stays when the value equals it. FENCE_SETUP gives the
function a table of its count, every fence zero, with its shadow address, unless a command waits or will signal. FENCE_SIGNAL resets, signals or sets ERROR. Values are stated where no standby front must
acknowledge, and where none has a shadow; with a standby the change waits for it.
Second: R236: changes that wait for the standby front take effect oldest first when it acknowledges (FENCE_STANDBY_ACK), and all of them when it has been unreachable for
10 ms (FENCE_STANDBY_TIMEOUT), which makes its module a failed part. -/
def Obligations.Fences : Prop :=
  (∀ (s : State) (f q seq : Nat) (c : Cmd),
     let fs := (partOf s f).fences
     let i := cmdWord c 24
     let w := tabGet 0 fs.words i
     let d := (bits (cmdWord c 16) 47 0 + 2 ^ 48 - w.toNat % 2 ^ 48) % 2 ^ 48
     (startedCmd s f q seq 0x00 = some c → ∃ t, exec (.nop f q seq) s = .next t ∧ completes s t f q seq 0 0) ∧
     (startedCmd s f q seq 0x02 = some c →
       let v := bits (cmdWord c 16) 47 0
       (w.getLsbD 63 = true → ∃ t, exec (.wait f q seq) s = .next t ∧ completes s t f q seq 0x10 0) ∧
       (w.getLsbD 63 = false → (w.toNat % 2 ^ 48 + 2 ^ 48 - v) % 2 ^ 48 < 2 ^ 47 → ∃ t, exec (.wait f q seq) s = .next t ∧ completes s t f q seq 0 0) ∧
       (w.getLsbD 63 = false → 2 ^ 47 ≤ (w.toNat % 2 ^ 48 + 2 ^ 48 - v) % 2 ^ 48 → exec (.wait f q seq) s = .next s)) ∧
     (startedCmd s f q seq 0x03 = some c → ∃ t, exec (.signal f q seq) s = .next t ∧ completes s t f q seq 0 0) ∧
     (startedCmd s f 0 seq 0x04 = some c → f < 64 → c.ctx ≠ 0 →
       (fencesInUse s f (0, seq) = true ∨ (fs.exist = true ∧ cmdWord c 16 < fs.count) → ∃ t,
         exec (.fenceSetup f seq) s = .next t ∧ completes s t f 0 seq 0x14 0) ∧
       (fencesInUse s f (0, seq) = false → (fs.exist = true → fs.count ≤ cmdWord c 16) → ∃ t,
         exec (.fenceSetup f seq) s = .next t ∧ (partOf t f).fences.count = cmdWord c 16 ∧ (partOf t f).fences.exist = true ∧
         (partOf t f).fences.shadow = cmdWord c 24 ∧ (∀ j, j < cmdWord c 16 → fenceNewest t f j = 0) ∧
         (fenceWaits s f = false → ∀ j, j < cmdWord c 16 → tabGet 0 (partOf t f).fences.words j = 0))) ∧
     (fenceWaits s f = false → fs.unacked = [] → fs.shadow = 0 →
       (∀ rest : List Cmd, (queueOf s f q).cmds = c :: rest → (∀ e ∈ rest, e.seq ≠ seq) → c.seq = seq → c.opc = 3 → c.phase = .done → c.status = 0 →
         cmdSignal c = false → (queueOf s f q).destroying = false → cqRoom (queueOf s f q) = true →
         let seen (t : State) : W64 := tabGet 0 (partOf t f).fences.words i
         (bitOf (cmdWord c 16) 63 = true → ∃ t, exec (.completionRecord f q seq) s = .next t ∧ (seen t).getLsbD 63 = true) ∧
         (bitOf (cmdWord c 16) 63 = false → w.getLsbD 63 = true → ∃ t, exec (.completionRecord f q seq) s = .next t ∧ seen t = w) ∧
         (bitOf (cmdWord c 16) 63 = false → w.getLsbD 63 = false →
           (1 ≤ d → d < 2 ^ 47 → ∃ t, exec (.completionRecord f q seq) s = .next t ∧ (seen t).toNat = bits (cmdWord c 16) 47 0) ∧
           (d = 0 ∨ 2 ^ 47 < d → ∃ t, exec (.completionRecord f q seq) s = .next t ∧ seen t = w) ∧
           (d = 2 ^ 47 → ∃ t, exec (.completionRecord f q seq) s = .next t ∧ (seen t).getLsbD 63 = true))) ∧
       (∀ (v : W64) (j : Nat), f ≤ 64 → (f < 64 → (partOf s f).vd.front = true) → fs.exist = true → bits v.toNat 59 48 = j → j < fs.count →
         let old := tabGet 0 fs.words j
         let seen (t : State) : W64 := tabGet 0 (partOf t f).fences.words j
         (v.getLsbD 62 = true → ∃ t, exec (.fenceSignal f v) s = .next t ∧ onlyPart s t f ∧
           (seen t).toNat = bits v.toNat 47 0 + (if v.getLsbD 63 then 2 ^ 63 else 0)) ∧
         (v.getLsbD 62 = false → v.getLsbD 63 = true → ∃ t, exec (.fenceSignal f v) s = .next t ∧ seen t = (old ||| BitVec.ofNat 64 (2 ^ 63)) ∧ onlyPart s t f) ∧
         (v.getLsbD 62 = false → v.getLsbD 63 = false → old.getLsbD 63 = false →
           let e := (bits v.toNat 47 0 + 2 ^ 48 - old.toNat % 2 ^ 48) % 2 ^ 48
           1 ≤ e → e < 2 ^ 47 → ∃ t, exec (.fenceSignal f v) s = .next t ∧ (seen t).toNat = bits v.toNat 47 0 ∧ onlyPart s t f)))) ∧
  (∀ (s : State) (n i : Nat) (w : W64) (r : List (Nat × W64)), (partOf s n).fences.unacked = (i, w) :: r →
     (∃ t, exec (.fenceStandbyAck n) s = .next t ∧ (partOf t n).fences.unacked = r ∧
       tabGet 0 (partOf t n).fences.words i = w ∧ (∀ j, j ≠ i → tabGet 0 (partOf t n).fences.words j = tabGet 0 (partOf s n).fences.words j) ∧
       ((partOf s n).fences.shadow = 0 → onlyPart s t n)) ∧
     (fenceWaits s n = true → ∃ t, exec (.fenceStandbyTimeout n) s = .next t ∧ (partOf t n).fences.unacked = [] ∧
       (r = [] → tabGet 0 (partOf t n).fences.words i = w) ∧
       ∀ m ∈ (partOf t n).vd.members, m.modId = standbyModule (partOf s n).vd → m.present = false))

/-- R225, R226, R240, R246, R249, R253: CQ_CTL's operations. A queue is created from its descriptor, a context takes its tag and becomes ACTIVE; a
queue without unfinished work is destroyed at once, one with an engine at work when every engine has acknowledged; the destruction of a context
without queues leaves it NONE. -/
def Obligations.QueuesAndContexts : Prop :=
  ∀ (s : State) (f q : Nat),
    (s.cq.go = true → s.cq.func = f → s.cq.queue = q → f < 64 → q < 6 → (partOf s f).vf.tdi = .unlocked → s.cq.waitReset = [] → s.glb.migBusy = false →
      let d (i : Nat) : Nat := (tabGet 0 s.cq.qdesc i).toNat
      (s.cq.op = 1 → (bits (d 2) 59 56 = 3 ∨ (bits (d 2) 59 56 = 2 ∧ q ≠ 1)) → descOk f d = true → (queueOf s f q).created = false →
        (partOf s f).ctx.state = .active → (partOf s f).vd.front = true → ∃ t, exec (.queueCreate f q) s = .next t ∧
        queueOf t f q = descQueue d ∧ (∀ r, r ≠ q → queueOf t f r = queueOf s f r) ∧ t.cq = { s.cq with go := false, status := 0 }) ∧
      (s.cq.op = 2 → (queueOf s f q).created = true → (queueOf s f q).destroying = false → (queueOf s f q).cmds = [] → ∃ t,
        exec (.queueDestroy f q) s = .next t ∧ queueOf t f q = {} ∧ t.cq.go = false ∧ t.cq.status = 0 ∧ t.cq.aborted = 0 ∧ t.cq.unreported = 0) ∧
      (s.cq.op = 3 → (partOf s f).vd.used = true → (partOf s f).vd.members = [] → (partOf s f).ctx.state = .none → s.cq.ctxArg ≠ 0 → s.cq.ctxArg ≠ 0xFFFF →
        partOfTag s s.cq.ctxArg = none → ∃ t, exec (.ctxSet f) s = .next t ∧ (partOf t f).ctx = { tag := s.cq.ctxArg, state := .active } ∧
        (∀ m, m ≠ f → partOf t m = partOf s m) ∧ t.cq = { s.cq with go := false, status := 0 }) ∧
      (s.cq.op = 4 → (partOf s f).ctx.state = .active → (partOf s f).queues = [] → (partOf s f).vd.members = [] → ∃ t,
        exec (.ctxDestroy f) s = .next t ∧ (partOf t f).ctx = {} ∧ (partOf t f).graphs = [] ∧ (partOf t f).colls = [] ∧
        (partOf t f).str.streams = [] ∧ t.cq.go = false ∧ t.cq.status = 0)) ∧
    (∀ (e e2 : Nat) (rest : List Nat), (queueOf s f q).destroying = true → (queueOf s f q).unacked = e :: e2 :: rest → e2 ≠ e → ∃ t,
      exec (.engineAbortAck f q e) s = .next t ∧ onlyQueue s t f q ∧
      queueOf t f q = { queueOf s f q with unacked := (e2 :: rest).filter (· != e) }) ∧
    (∀ e : Nat, (queueOf s f q).destroying = true → (queueOf s f q).unacked = [e] → (queueOf s f q).cmds = [] → s.cq.go = false → ∃ t,
      exec (.engineAbortAck f q e) s = .next t ∧ queueOf t f q = {}) ∧
    ∀ (e : Nat) (rest : List Nat), (queueOf s f q).destroying = true → (queueOf s f q).unacked = e :: rest → e < 64 → ∃ t,
      exec (.engineAbortTimeout f q) s = .next t ∧ t.err.failing = some 1

/-- First: R157, R159, R162, R173, R177, R181, R182, R132: a RANGE_MAP whose turn has come and that passes its checks is placed by the module on which its range lies and adds the range,
which meets no other; it completes when every other member has its copy, at once where there is none; one that fails its checks changes no range. RANGE_UNMAP withdraws the range that starts
at its address and completes when its transfers have drained everywhere. LLM_CONFIG erases the granule and sets its mode.
Second: R177, R178, R180: REBALANCE and the Surveyor's SLOT_MOVE mark a slot MOVING, SLOT_MOVE copies its extent in steps of 64 KiB to a channel that has the extent free, and the last step
rewrites the slot; the tasks of a leaving compute slice are asked to give way, and a leaving memory slice is cleared of what is placed on it; for a range with no room on the module another member is asked for room. -/
def Obligations.RangesAndMoves : Prop :=
  (∀ (s : State) (f seq n : Nat) (c : Cmd), targetPart s f c = some n →
     let w (i : Nat) : Nat := cmdWord c (16 + 8 * i)
     let status (t : State) (st : Nat) : Prop := ∃ d, findCmd t f 0 seq = some d ∧ d.phase = .done ∧ d.status = st
     (startedCmd s f 0 seq 0x08 = some c →
       (rangeTurn s f n c = false → exec (.rangeMap f seq) s = .next s) ∧
       (rangeTurn s f n c = true →
         (∀ st, mapCheck s n w (cmdWord c 80) = .error st → ∃ t, exec (.rangeMap f seq) s = .next t ∧ completes s t f 0 seq st 0) ∧
         ∀ r, mapCheck s n w (cmdWord c 80) = .ok r →
           (r.kind = bits (w 0) 59 58 ∧ r.base = bits (w 0) 51 12 ∧ r.len = bits (w 1) 39 0 ∧ r.r = bitOf (w 0) 57 ∧ r.w = bitOf (w 0) 56 ∧
             1 ≤ r.len ∧ 16 ≤ r.base ∧ ¬ (r.shared = true ∧ r.w = true) ∧
             ∀ x ∈ (partOf s n).ranges, r.base + r.len ≤ x.base ∨ x.base + x.len ≤ r.base) ∧
           (placerHere s n r = true →
             (∀ st, placeRange s n r (cmdWord c 80) = .error st → ∃ t, exec (.rangeMap f seq) s = .next t ∧ completes s t f 0 seq st 0) ∧
             ∀ p, placeRange s n r (cmdWord c 80) = .ok p → p = { r with n := p.n, offset := p.offset, targets := p.targets, residence := p.residence } ∧ ∃ t,
               exec (.rangeMap f seq) s = .next t ∧ (partOf t n).ranges = (partOf s n).ranges ++ [p] ∧ t.mem = s.mem ∧
               (otherMembers s n = [] → status t 0) ∧
               (otherMembers s n ≠ [] → ∃ o, (partOf t n).rangeOp = some o ∧ o.waits = otherMembers s n ∧ t.fab.out.length = s.fab.out.length + (otherMembers s n).length)) ∧
           (placerHere s n r = false → ∃ (t : State) (p : Packet), exec (.rangeMap f seq) s = .next t ∧ t.fab.out = s.fab.out ++ [p] ∧ p.dst = placerOf s n r ∧
             (partOf t n).ranges = (partOf s n).ranges ∧ t.mem = s.mem))) ∧
     (startedCmd s f 0 seq 0x09 = some c → rangeTurn s f n c = true →
       ((partOf s n).ranges.find? (fun r => r.base * 4096 == w 0) = none → ∃ t, exec (.rangeUnmap f seq) s = .next t ∧ completes s t f 0 seq 0x14 0) ∧
       ∀ r, (partOf s n).ranges.find? (fun r => r.base * 4096 == w 0) = some r → heldOn s n r = [] →
         ∃ t, exec (.rangeUnmap f seq) s = .next t ∧ (partOf t n).ranges = (partOf s n).ranges.filter (fun x => x.base != r.base) ∧
           (otherMembers s n = [] → placerHere s n r = true → rangeDrained s n r = true → s.sur.moves = [] → (partOf s n).dying = [] →
             status t 0 ∧ (bitOf (cmdWord c 24) 0 = false → t.mem = s.mem) ∧
             (r.kind = 3 → ∀ k ∈ (partOf t n).residence, ¬ (r.base ≤ k.1 ∧ k.1 < r.base + r.len)))) ∧
     (startedCmd s f 0 seq 0x0B = some c →
       let i := bits (w 0) 8 0
       let cache := bitOf (w 0) 16
       ((granuleOf s i).valid = false ∨ (granuleOf s i).part ≠ n → ∃ t, exec (.llmConfig f seq) s = .next t ∧ completes s t f 0 seq 0x14 0) ∧
       ((granuleOf s i).valid = true → (granuleOf s i).part = n →
         ((granuleOf s i).cache = cache → ∃ t, exec (.llmConfig f seq) s = .next t ∧ completes s t f 0 seq 0 0) ∧
         ((granuleOf s i).cache ≠ cache → ∃ t, exec (.llmConfig f seq) s = .next t ∧ status t 0 ∧
           granuleOf t i = { granuleOf s i with cache := cache } ∧ (∀ j, j ≠ i → granuleOf t j = granuleOf s j) ∧
           (∀ a, granulePa i ≤ a → a < granulePa i + 0x100000 → tabGet 0#8 t.mem a = 0) ∧
           memKept s t (fun a => granulePa i ≤ a ∧ a < granulePa i + 0x100000))))) ∧
  (∀ (s : State) (n : Nat) (r : Range) (slot dest g : Nat), (partOf s n).ranges = [r] → r.targets.getD slot (1, false, 0) = (0, (r.targets.getD slot (1, false, 0)).2.1, g) →
     slot < r.targets.length →
     let begun (t : State) (cmd : Option (Nat × Nat)) : Prop := (partOf t n).ranges = [{ r with targets := r.targets.set slot (0, true, g) }] ∧ t.mem = s.mem ∧
       t.sur = { s.sur with moves := s.sur.moves ++ [{ n := n, base := r.base, slot := slot, dest := dest, steps := 0, cmd := cmd }] }
     (moveOf s n r.base slot = none → slotCanMove s n r slot dest = true → ∃ t, exec (.slotMove n r.base slot dest) s = .next t ∧ begun t none) ∧
     (∀ (f seq : Nat) (c : Cmd), startedCmd s f 5 seq 0x61 = some c → targetPart s f c = some n → cmdWord c 16 = r.base * 4096 → c.moved = 0 →
       bits (cmdWord c 24) 3 0 = slot → bits (cmdWord c 24) 24 16 = dest →
       (slotCanMove s n r slot dest = true → ∃ t, exec (.rebalance f seq) s = .next t ∧ begun t (some (f, seq))) ∧
       (slotCanMove s n r slot dest = false → ∃ t, exec (.rebalance f seq) s = .next t ∧ completes s t f 5 seq 0x14 0)) ∧
     (∀ m : Move, s.sur.moves = [m] → m.n = n → m.base = r.base → m.slot = slot → m.dest = dest → g ≠ dest → g < 384 → dest < 384 →
       (chanOf s g).redirect = [] → (chanOf s dest).redirect = [] → r.offset + r.len / r.n ≤ chanPages → cacheTrue s → 16 * m.steps < r.len / r.n → ∃ t,
       exec (.slotMove n r.base slot dest) s = .next t ∧
       (let o := (r.offset + 16 * m.steps) * 4096
        ∀ j, j < Nat.min 16 (r.len / r.n - 16 * m.steps) * 4096 → tabGet 0#8 t.mem (chanPa dest + o + j) = tabGet 0#8 s.mem (chanPa g + o + j)) ∧
       (16 * (m.steps + 1) < r.len / r.n → t.sur.moves = [{ m with steps := m.steps + 1 }] ∧ (partOf t n).ranges = [r]) ∧
       (r.len / r.n ≤ 16 * (m.steps + 1) → (partOf s n).rangeOp = none →
         t.sur.moves = [] ∧ (partOf t n).ranges = [{ r with targets := r.targets.set slot (0, false, dest) }] ∧
         ∀ f seq c, m.cmd = some (f, seq) → findCmd s f 5 seq = some c → otherMembers s n = [] → ∃ d, findCmd t f 5 seq = some d ∧ d.phase = .done ∧ d.status = 0)) ∧
     (∀ k : Nat, k < 64 → (partOf s n).vd.leaving.contains k = true → (sliceOf s k).state = .assigned → (sliceOf s k).owner = n → ∃ t,
       exec (.sliceEvacuate n k) s = .next t ∧ t = { s with cores := t.cores, fab := t.fab } ∧ ((partOf s n).vd.front = true → t.fab = s.fab) ∧
       ∀ d, coreOf t d = if d / 16 = k ∧ (coreOf s d).mode = .running then { coreOf s d with preemptReq := true } else coreOf s d) ∧
     ((partOf s n).vd.leaving.contains (64 + g) = true → g < 384 → (sliceOf s (64 + g)).state = .assigned → (sliceOf s (64 + g)).owner = n →
       (partOf s n).carve.areas = [] → (partOf s n).residence = [] → redirectsOf s n = [] → r.n = 1 → r.targets = [(0, false, g)] → r.kind = 1 →
       r.modId = s.glb.moduleId →
       ((placeSlices s n).find? (fun d => d != g && slotCanMove s n r 0 d) = some dest → ∃ t,
         exec (.sliceEvacuate n (64 + g)) s = .next t ∧ (partOf t n).ranges = [{ r with targets := [(0, false, dest)] }]) ∧
       ∀ (m : Nat) (ms : List Nat), moveSlotOff s n g r 0 = none → (partOf s n).aways = [] → otherMembers s n = m :: ms → ∃ (t : State) (p : Packet),
         exec (.sliceEvacuate n (64 + g)) s = .next t ∧ t.mem = s.mem ∧ (partOf t n).ranges = [r] ∧
         (partOf t n).aways = [{ base := r.base, left := ms, to_ := some m }] ∧ t.fab.out = s.fab.out ++ [p] ∧ p.dst = m ∧ p.kind = 8 ∧ p.operand = ctlOperand 42 r.base))

/-- R165–R171, R182, R185: a page of a MIGRATABLE range takes a free device page and is MIGRATING till its data is there, and goes back to the host on
MIGRATE_RETURN; a fault takes an entry of the fault queue, with its Page Request Group, joins the one its page has, or waits while the queue is full; its response ends it, and a failure answers the transfers that hold with FAULT; an
invalidation drops the translations it names and is answered once no transfer holds one; a thirty-third waits. -/
def Obligations.HostPages : Prop :=
  ∀ (s : State) (n page pa : Nat) (data : List Byte),
    (∀ r : Range, (partOf s n).ranges = [r] → r.kind = 3 → r.base ≤ page → page < r.base + r.len → (page - r.base) % 16 = 0 → isHomePart (partOf s n) = true →
      (tabGet {} (partOf s n).residence page).dev = false →
      (let s1 := translateSpan s (.cp 0) n (page * 4096) (Nat.min 65536 ((r.base + r.len - page) * 4096)) false (unitCode (.cp 0), page)
       (tabGet {} (partOf s n).residence page).phys = 0 → hostDest s1 n (hostAddr r (page * 4096)) r.pv r.pasid ≠ .wait → freePage s1 n = some pa → ∃ t,
        exec (.pageMigrate n page data) s = .next t ∧ tabGet {} (partOf t n).residence page = { dev := false, migrating := true, phys := pa } ∧ t.mem = s.mem) ∧
      ((tabGet {} (partOf s n).residence page).phys = pa → pa ≠ 0 → data.length = 65536 → ∃ t,
        exec (.pageMigrate n page data) s = .next t ∧ tabGet {} (partOf t n).residence page = { dev := true, migrating := false, phys := pa } ∧
        (∀ j, j < 65536 → tabGet 0#8 t.mem (redirect s pa + j) = data.getD j 0#8) ∧
        memKept s t (fun a => redirect s pa ≤ a ∧ a < redirect s pa + 65536) ∧
        (∀ m, m ≠ n → partOf t m = partOf s m) ∧ (partOf t n).ranges = [r])) ∧
    (∀ (seq g : Nat) (c : Cmd) (r : Range), hostFunc s n = some g → startedCmd s n 5 seq 0x60 = some c → findRange (partOf s n) (cmdWord c 16) = some r → r.kind = 3 →
      isHomePart (partOf s n) = true →
      let key := pageKey r (cmdWord c 16)
      let dest (i : Nat) : Dest := hostDest s n (hostAddr r (key * 4096) + 4096 * i) r.pv r.pasid
      let addr (i : Nat) : Nat := match dest i with | .host a _ _ => a | _ => 0
      tabGet {} (partOf s n).residence key = { dev := true, migrating := false, phys := pa } → r.base ≤ key → (∀ i, i < 16 → dest i ≠ .wait) → ∃ t,
      exec (.migrateReturn n seq) s = .next t ∧ tabGet {} (partOf t n).residence key = {} ∧ t.mem = s.mem ∧
      t.hostOut = s.hostOut ++ (List.range (Nat.min 16 (r.base + r.len - key))).map (fun i =>
        { hostWrite s g (addr i) (tabBytes s.mem (redirect s (pa + 4096 * i)) 4096) with
          pasid := if r.pv then some r.pasid else none, translated := atsOn s g, bad := memPoisoned s (redirect s (pa + 4096 * i)) 4096 }) ∧
      ∃ d, findCmd t n 5 seq = some d ∧ d.phase = .done ∧ d.status = 0) ∧
    (∀ (port fn pasid : Nat) (holder : Nat × Nat), 1 ≤ fn → fn ≤ 64 → port ≤ 1 →
      let same (x : FaultEntry) : Prop := x.fn = fn ∧ x.pasid = pasid ∧ x.page = page
      ((∀ x ∈ s.sur.faultQ, ¬ same x) → s.sur.waiting = [] → s.sur.faultQ.length < 256 → ∃ t, exec (.pageFault port fn pasid page holder) s = .next t ∧
        t.mem = s.mem ∧ t.sur.faultQ.length = s.sur.faultQ.length + 1 ∧ (∃ e ∈ t.sur.faultQ, same e ∧ e.port = port ∧ e.holders = [holder]) ∧
        (s.sur.faultQ = [] → 2 ≤ tabGet 0 (portOf s port).ats fn → t.sur.requests = s.sur.requests ++
          (List.range 16).map (fun i => { port := port, fn := fn, pasid := pasid, page := 16 * page + i, last := i == 15 }))) ∧
      ((∀ x ∈ s.sur.faultQ, ¬ same x) → s.sur.waiting = [] → 256 ≤ s.sur.faultQ.length → ∃ t, exec (.pageFault port fn pasid page holder) s = .next t ∧
        t.mem = s.mem ∧ t.sur.faultQ = s.sur.faultQ ∧ t.sur.overflow = true ∧ t.sur.waiting.length = 1) ∧
      (∀ x, s.sur.faultQ = [x] → same x → holder ∉ x.holders → ∃ t, exec (.pageFault port fn pasid page holder) s = .next t ∧
        t.sur = { s.sur with faultQ := [{ x with holders := x.holders ++ [holder] }] } ∧ t.mem = s.mem)) ∧
    (∀ x : FaultEntry, s.sur.faultQ = [x] → x.sent = true → s.sur.waiting = [] →
      (∃ t, exec (.pageRequestGroupResponse x.fn x.pasid x.page true) s = .next t ∧ t = { s with sur := { s.sur with faultQ := [] }, parts := t.parts }) ∧
      ∀ (c k : Nat) (y : Xfer), x.holders = [(c, k)] → c < 1024 → xferOf s c k = some y → y.performed = false → ∃ t,
        exec (.pageRequestGroupResponse x.fn x.pasid x.page false) s = .next t ∧ t.sur.faultQ = [] ∧ xferOf t c k = some { y with answer := some .fault }) ∧
    (∀ port fn pasid pages : Nat, 32 ≤ (s.sur.inv.filter (fun v => !v.go)).length → exec (.atsInvalidateRequest port fn pasid page pages) s = .next s) ∧
    (∀ port fn pasid pages : Nat, port ≤ 1 → (s.sur.inv.filter (fun v => !v.go)).length < 32 → ∃ t, exec (.atsInvalidateRequest port fn pasid page pages) s = .next t ∧
      ((∀ m ∈ livePartsOf s, ∀ x ∈ xfersOf s m, x.sent = false) → t.resp = s.resp ++ [(1048 + port, page, .ok, [])]) ∧ t.mem = s.mem ∧
      (∀ e ∈ t.sur.atc, e ∈ s.sur.atc ∧ ¬ (e.port = port ∧ e.fn = fn ∧ e.pasid = pasid ∧ e.page < page + pages ∧ page < e.page + e.pages)) ∧
      ∀ e ∈ s.sur.atc, ¬ (e.port = port ∧ e.fn = fn ∧ e.pasid = pasid ∧ e.page < page + pages ∧ page < e.page + e.pages) → e ∈ t.sur.atc) ∧
    (∀ (port fn : Nat) (all : Bool), (∃ v ∈ s.sur.inv, v.go = true) → exec (.surAtcInv port all fn) s = .next s) ∧
    ∀ (port fn : Nat) (all : Bool), port ≤ 1 → (∀ v ∈ s.sur.inv, v.go = false) → ∃ t, exec (.surAtcInv port all fn) s = .next t ∧ t = { s with sur := t.sur } ∧
      t.sur.faultQ = s.sur.faultQ ∧ (t.sur.invPort = true ↔ port = 1) ∧ t.sur.invAll = all ∧ t.sur.invFn = fn % 128 ∧
      ∀ e, e ∈ t.sur.atc ↔ e ∈ s.sur.atc ∧ ¬ (e.port = port ∧ (all = true ∨ e.fn = fn))

/-- R174–R176: a request at the allocator hands out a block aligned to its size that lies in the heap and meets no block handed out, refuses an
order outside 12 to 30, takes back a block by its start, and answers at the port, where one GET collects the reply. -/
def Obligations.Allocator : Prop :=
  ∀ (s : State) (n task : Nat) (r : Range), poolRange (partOf s n) r.base = some r → r.modId = s.glb.moduleId →
    let pool (t : State) : Pool := tabGet {} (partOf t n).pools r.base
    (portBusy (partOf s n) r.base task = false →
      (∀ (order a : Nat) (zero : Bool), 12 ≤ order → order ≤ 30 → poolBlock (partOf s n) r order = some a → ∃ t,
        exec (.alloc n r.base task order zero) s = .next t ∧ tabGet 0 (pool t).blocks a = order ∧
        (∀ b, b ≠ a → tabGet 0 (pool t).blocks b = tabGet 0 (pool s).blocks b) ∧
        (pool t).replies = (pool s).replies ++ [(task, ⟨0, order, a⟩)] ∧ (zero = false → t.mem = s.mem) ∧
        a % 2 ^ order = 0 ∧ r.base * 4096 + 4096 ≤ a ∧ a + 2 ^ order ≤ (r.base + r.len) * 4096 ∧
        ∀ b ∈ (pool s).blocks, a + 2 ^ order ≤ b.1 ∨ b.1 + 2 ^ b.2 ≤ a) ∧
      (∀ (order : Nat) (zero : Bool), order < 12 ∨ 30 < order → ∃ t, exec (.alloc n r.base task order zero) s = .next t ∧
        (pool t).replies = (pool s).replies ++ [(task, ⟨3, order, 0⟩)] ∧ (pool t).blocks = (pool s).blocks) ∧
      (∀ addr order : Nat, tabGet 0 (pool s).blocks addr = order → order ≠ 0 → ∃ t, exec (.free n r.base task addr) s = .next t ∧
        tabGet 0 (pool t).blocks addr = 0 ∧ (∀ b, b ≠ addr → tabGet 0 (pool t).blocks b = tabGet 0 (pool s).blocks b) ∧
        (pool t).replies = (pool s).replies ++ [(task, ⟨0, order, 0⟩)]) ∧
      (∀ addr : Nat, tabGet 0 (pool s).blocks addr = 0 → ∃ t, exec (.free n r.base task addr) s = .next t ∧
        (pool t).blocks = (pool s).blocks ∧ (pool t).replies = (pool s).replies ++ [(task, ⟨2, 0, 0⟩)])) ∧
    ∀ q : PortReq, (pool s).replies = [(task, q)] → ∃ t, exec (.allocPortGet n r.base task) s = .next t ∧ (pool t).replies = [] ∧
      t.resp = s.resp ++ [(unitCode (.cp 0), task, .ok, replyBytes q)] ∧ (replyBytes q).length = 64

/-- R109, R218, R248, R456, R39, R41, R47, R72: COPY, FILL and CONVERT move one segment of at most 1 MiB and complete with the last. Stated for data that
fits one segment and whose destination nothing refuses; a CONVERT to a block format writes whole blocks and their scales. -/
def Obligations.CopyEngine : Prop :=
  ∀ (s : State) (n seq pa : Nat) (c : Cmd) (r : Range) (ext : List Byte), c.moved = 0 →
    let e := copyEngine s n
    let done (t : State) : Prop := ∃ d, findCmd t n 3 seq = some d ∧ d.phase = .done ∧ d.status = 0
    let ends (i : Instr) (bytes : List Byte) : Prop := ∃ t, exec i s = .next t ∧ wroteSpan s t n pa bytes ∧ (pa < spillBase → t.hostOut = s.hostOut) ∧ done t
    let h := copyHolder e seq
    (∀ bs : List Byte, startedCmd s n 3 seq 0x40 = some c → cmdWord c 32 ≤ 0x100000 →
      (engineRead s (.copy e) h n (cmdWord c 16) (cmdWord c 32) ext).2 = .ok bs → bs.length = cmdWord c 32 →
      (cmdWord c 16 + cmdWord c 32 ≤ cmdWord c 24 ∨ cmdWord c 24 + cmdWord c 32 ≤ cmdWord c 16) →
      writeRefused s (.copy e) n (cmdWord c 24) (cmdWord c 32) = none → deviceSpan s n (cmdWord c 24) (cmdWord c 32) r pa → r.w = true →
      ends (.copy n seq ext) bs) ∧
    (startedCmd s n 3 seq 0x41 = some c → cmdWord c 32 % 8 = 0 → writeRefused s (.copy e) n (cmdWord c 16) (cmdWord c 32) = none →
      deviceSpan s n (cmdWord c 16) (cmdWord c 32) r pa → r.w = true →
      ∃ bs : List Byte, bs.length = cmdWord c 32 ∧ (∀ j, j < cmdWord c 32 → bs.getD j 0#8 = BitVec.ofNat 8 (cmdWord c 24 / 256 ^ (j % 8))) ∧ ends (.fill n seq) bs) ∧
    ∀ elems : List Byte, startedCmd s n 3 seq 0x42 = some c → convertLegal (cmdWord c) = true →
      let src := bits (cmdWord c 40) 3 0
      let dst := bits (cmdWord c 40) 7 4
      let rtz := bitOf (cmdWord c 40) 8
      let k := bits (cmdWord c 32) 31 0
      let to_ := cmdWord c 24
      k ≤ convertSegment (cmdWord c) → (engineRead s (.copy e) h n (cmdWord c 16) (packedBytes (fmtBits src) k) ext).2 = .ok elems →
      (bitOf (cmdWord c 40) 10 = false →
        let out := packCodes (fmtBits dst) ((unpackCodes (fmtBits src) k elems).map (fun x => (toElem dst rtz (bitOf (cmdWord c 40) 9) (decodeElem src x)).1))
        writeRefused s (.copy e) n to_ out.length = none → deviceSpan s n to_ out.length r pa → r.w = true → ends (.convert n seq ext) out) ∧
      (bitOf (cmdWord c 40) 10 = true → src = fFP32 → s.sur.moves = [] → ∀ (pb : Nat) (r' : Range),
        let blocks := toBlocks dst rtz (unpackCodes 32 k elems)
        let out := packCodes (fmtBits dst) (blocks.flatMap (·.2))
        let scales := blocks.map (fun x => BitVec.ofNat 8 x.1)
        let at_ := scaleArray to_ dst k
        writeRefused s (.copy e) n to_ out.length = none → writeRefused s (.copy e) n at_ scales.length = none →
        deviceSpan s n to_ out.length r pa → r.w = true → deviceSpan s n at_ scales.length r' pb → r'.w = true →
        (pa + out.length ≤ pb ∨ pb + scales.length ≤ pa) → ∃ t, exec (.convert n seq ext) s = .next t ∧ done t ∧
          (∀ j, j < out.length → tabGet 0#8 t.mem (pa + j) = out.getD j 0#8) ∧ ∀ j, j < scales.length → tabGet 0#8 t.mem (pb + j) = scales.getD j 0#8)

/-- R89, R90, R93, R234, R243–R245: LAUNCH starts the share of the grid that is homed here; GRAPH_STORE keeps an image at version 0 and returns its
handle; GRAPH_PATCH adds the next version; GRAPH_LAUNCH pins the newest; a node starts when its predecessors are done, marked as running;
GRAPH_DESTROY frees a graph that nothing uses. -/
def Obligations.KernelsAndGraphs : Prop :=
  ∀ (s : State) (f seq : Nat) (c : Cmd),
    let w := cmdWord c
    let total := (bits (w 24) 47 32 + 1) * (bits (w 24) 63 48 + 1) * (bits (w 32) 15 0 + 1)
    let result (t : State) (q st res : Nat) : Prop := ∃ d, findCmd t f q seq = some d ∧ d.phase = .done ∧ d.status = st ∧ d.result = res
    (∀ m : Member, startedCmd s f 2 seq 0x30 = some c → c.moved = 0 → (partOf s f).vd.members = [m] → m.rank = (partOf s f).vd.rank → 1 ≤ m.compute →
      total ≤ 2 ^ 31 → 1 ≤ bits (w 24) 13 0 → bits (w 24) 13 0 ≤ 8192 → (bitOf (w 32) 16 = true → total ≤ 16 * m.compute) →
      (bits (w 48) 48 32 + 3) / 4 ≤ freePages s f → ∃ t, exec (.launch f seq) s = .next t ∧ t.cores = s.cores ∧
        (let x := launchOf t f (partOf s f).nextLaunch
         x.live = true ∧ x.seq = some seq ∧ x.gx * x.gy * x.gz = total ∧ x.lo = 0 ∧ x.hi = total ∧ x.next = 0 ∧ x.program = bits (w 16) 51 0 ∧
         x.progLen = bits (w 24) 13 0 ∧ x.entry = bits (w 24) 28 16 ∧ x.args = bits (w 40) 51 0 ∧ x.argLen = bits (w 32) 44 32 ∧
         x.extent = bits (w 48) 18 0 ∧ x.coresident = bitOf (w 32) 16 ∧ x.tasks = []) ∧
        (partOf t f).carve.extra = (partOf s f).carve.extra + (bits (w 48) 48 32 + 3) / 4) ∧
    (∀ (n h : Nat) (im : List Byte) (nodes : List (Nat × List Nat × List Byte)) (image gen : List Byte), startedCmd s f 0 seq 0x10 = some c →
      targetPart s f c = some n → w 32 = 0 → (controlRead s n seq (w 16) (w 24) image).2 = .ok im → imageNodes im = some nodes →
      freeGraph (partOf s n) = some h → ∃ t, exec (.graphStore f seq image gen) s = .next t ∧ result t 0 0 h ∧ 1 ≤ h ∧ h ≤ 1024 ∧
        (tabGet {} (partOf s n).graphs h).versions = [] ∧
        tabGet {} (partOf t n).graphs h = { versions := [{ ver := 0, opcs := nodes.map (·.1), preds := nodes.map (·.2.1), params := nodes.map (·.2.2), gen := none, genBytes := [] }] } ∧
        ∀ j, j ≠ h → tabGet {} (partOf t n).graphs j = tabGet {} (partOf s n).graphs j) ∧
    (∀ (n : Nat) (v nv : GVersion) (b patch : List Byte), startedCmd s f 0 seq 0x11 = some c → targetPart s f c = some n →
      (tabGet {} (partOf s n).graphs (w 16)).versions = [v] → v.gen = none → v.ver < 4095 →
      (controlRead s n seq (w 24) (16 * w 32) patch).2 = .ok b → patchAll v (pieces 16 b) = some nv → ∃ t,
      exec (.graphPatch f seq patch) s = .next t ∧ result t 0 0 (v.ver + 1) ∧
      (tabGet {} (partOf t n).graphs (w 16)).versions.getLast? = some { nv with ver := v.ver + 1 } ∧
      ∀ j, j ≠ w 16 → tabGet {} (partOf t n).graphs j = tabGet {} (partOf s n).graphs j) ∧
    (∀ n : Nat, startedCmd s f 0 seq 0x12 = some c → targetPart s f c = some n → (tabGet {} (partOf s n).graphs (w 16)).versions ≠ [] →
      graphStreams (partOf s n) (w 16) = false → graphRuns (partOf s n) (w 16) = false → ∃ t, exec (.graphDestroy f seq) s = .next t ∧
      result t 0 0 0 ∧ (tabGet {} (partOf t n).graphs (w 16)).versions = [] ∧
      ∀ j, j ≠ w 16 → tabGet {} (partOf t n).graphs j = tabGet {} (partOf s n).graphs j) ∧
    (∀ v : GVersion, startedCmd s f 2 seq 0x31 = some c → c.moved = 0 → (tabGet {} (partOf s f).graphs (w 16)).versions.getLast? = some v → v.gen = none → ∃ t,
      exec (.graphLaunch f seq) s = .next t ∧ onlyQueue s t f 2 ∧
      (queueOf t f 2).cmds = (queueOf s f 2).cmds.map (fun d => if d.seq = seq then { d with moved := 1, gver := v.ver } else d)) ∧
    ∀ (v : GVersion) (nodes : List (Nat × Nat)) (running : List (Nat × Nat)) (node : Nat) (ext : List Byte), seq < 2 ^ 32 → runOf s f seq = some (v, nodes, running) →
      node < v.opcs.length → (∀ d ∈ nodes, d.1 ≠ node) → node ∉ running.map (·.1) → (∀ q ∈ v.preds.getD node [], ∃ d ∈ nodes, d.1 = q) →
      v.opcs.getD node 0 = 0x51 → nodeLegal 0x51 (v.params.getD node []) = true →
      (let h := bits (leAt (v.params.getD node []) 0 8) 11 0
       invokeOk (collOf s f h) (bits (leAt (v.params.getD node []) 0 8) 63 32) = true → (collOf s f h).running = false → ∃ t,
        exec (.graphNodeStart f seq node ext) s = .next t ∧ (collOf t f h).running = true ∧ (collOf t f h).cmd = some (seq, some node) ∧
        ∃ d, findCmd t f 2 seq = some d ∧ d.nodes = nodes ∧ d.running = running ++ [(node, 0)])

/-- R52–R56, R111–R116, R235: a registration takes the lowest free handle with its ranks; triggers of every rank start an epoch in TASK mode, a
command starts one in COMMAND mode; when the epoch is done every rank's destination holds the operation's result, the epoch moves on and the
command completes; a registration stands once every other member has its reservation; a handle without pending invocation is released. -/
def Obligations.Collectives : Prop :=
  ∀ (s : State) (f seq n h : Nat) (c : Cmd),
    let co := collOf s n h
    let result (t : State) (st res : Nat) : Prop := ∃ d, findCmd t f 4 seq = some d ∧ d.phase = .done ∧ d.status = st ∧ d.result = res
    (∀ (ranks sizes rb : List Byte), startedCmd s f 4 seq 0x50 = some c → targetPart s f c = some n →
      collOk (collOfCmd c) (collOfCmd c).chunks (cmdWord c 40) (bits (cmdWord c 16) 18 17) = true → (collOfCmd c).op ≤ 3 →
      (∀ x ∈ (partOf s n).colls, x.2.askCmd ≠ some (f, seq)) →
      (engineRead s (.coll 0) (1036, seq) n (cmdWord c 32) (16 * (collOfCmd c).n) ranks).2 = .ok rb → freeHandle (partOf s n) = some h →
      stagingUsed s (collEngine (bits (cmdWord c 16) 18 17) h) + 0x100000 ≤ stagingBank → ∃ t,
      exec (.collRegister f seq ranks sizes) s = .next t ∧
      collOf t n h = { collOfCmd c with
        ranks := pairUp (tableWords 8 rb), sizes := [], engine := collEngine (bits (cmdWord c 16) 18 17) h, staging := (collOf t n h).staging
        registered := decide (otherMembers s n = []), asking := otherMembers s n, askCmd := if otherMembers s n = [] then none else some (f, seq) } ∧
      (otherMembers s n = [] → result t 0 h) ∧
      0x1000 ≤ (collOf t n h).staging ∧ (collOf t n h).staging ≤ 0x100000 ∧ (∀ j, j < h → (collOf s n j).registered = true ∨ (collOf s n j).asking ≠ [])) ∧
    (startedCmd s n 4 seq 0x51 = some c → bits (cmdWord c 16) 11 0 = h → co.registered = true → co.task = false → co.running = false → co.cmd = none →
      (bits (cmdWord c 16) 63 32 = co.epoch → ∃ t, exec (.collInvoke n seq) s = .next t ∧ onlyPart s t n ∧
        collOf t n h = { co with running := true, cmd := some (seq, none), epoch := co.epoch } ∧ ∀ j, j ≠ h → collOf t n j = collOf s n j) ∧
      (bits (cmdWord c 16) 63 32 ≠ co.epoch → ∃ t, exec (.collInvoke n seq) s = .next t ∧ completes s t n 4 seq 0x14 0)) ∧
    (startedCmd s f 4 seq 0x52 = some c → targetPart s f c = some n → cmdWord c 16 = h → co.registered = true → co.running = false → co.triggered = [] →
      co.early = [] → co.arrived = [] → ∃ t, exec (.collRelease f seq) s = .next t ∧ result t 0 0 ∧ collOf t n h = {} ∧
      ∀ j, j ≠ h → collOf t n j = collOf s n j) ∧
    (∀ rank epoch : Nat, co.registered = true → co.task = true → rank < co.n → co.arrived = [(rank, epoch)] → rank ∉ co.triggered → rank ∉ co.early →
      (epoch = co.epoch → co.running = false → ∃ t, exec (.collTrigger n h rank epoch) s = .next t ∧ onlyPart s t n ∧
        collOf t n h = { co with arrived := [], triggered := co.triggered ++ [rank], running := decide (co.n ≤ co.triggered.length + 1) }) ∧
      (epoch = (co.epoch + 1) % 2 ^ 32 → epoch ≠ co.epoch → ∃ t, exec (.collTrigger n h rank epoch) s = .next t ∧ onlyPart s t n ∧
        collOf t n h = { co with arrived := [], early := co.early ++ [rank] })) ∧
    ∀ (q a b va vb pa pb : Nat) (ra rb : Range) (x y : List Byte), co.registered = true → co.running = true → co.task = false → co.cmd = some (q, none) →
      frozen s n = false → co.bad = false → co.ranks = [(a, va), (b, vb)] → co.n = 2 →
      (let m : Master := .coll (co.engine + 2 * (h + 1))
       let hold : Nat × Nat := (1036 + co.engine, q)
       let s1 := collTranslate (collTranslate s m n hold false [(a, srcBytes co 0), (b, srcBytes co 1)]) m n hold true [(va, dstBytes co 0), (vb, dstBytes co 1)]
       readContribs s1 m n co 0 co.ranks [x, y] = .ok [x, y] →
       let out := collResult co [x, y]
       deviceSpan s n va (out.getD 0 []).length ra pa → deviceSpan s n vb (out.getD 1 []).length rb pb → ra.w = true → rb.w = true →
       writeRefused s m n va (out.getD 0 []).length = none →
       writeRefused s m n vb (out.getD 1 []).length = none → ∃ t u,
       exec (.collEpochDone n h [x, y] false) s = .next t ∧ wroteSpan s u n pa (out.getD 0 []) ∧ wroteSpan u t n pb (out.getD 1 []) ∧
       (collOf t n h).running = false ∧ (collOf t n h).epoch = (co.epoch + 1) % 2 ^ 32 ∧
       ∀ d, findCmd s n 4 q = some d → ∃ e, findCmd t n 4 q = some e ∧ e.phase = .done ∧ e.status = 0 ∧ e.result = co.epoch)

/-- R187, R192, R209, R218, R276: a stream command in a state that does not accept it is refused; an accepted one goes into the journals, and takes
effect when they hold it; one whose stream has its home elsewhere is passed on. STREAM_OPEN and STREAM_APPEND carry their prompt into the entry; an OPEN
of a stream that another module is home to is refused here. -/
def Obligations.StreamCommands : Prop :=
  ∀ (s : State) (f seq : Nat) (c : Cmd), f < 64 → c.moved = 0 →
    let p := partOf s f
    let id := bits (cmdWord c 16) 19 0
    let x := streamOf s f id
    let j := p.journal.nextJseq
    let queued (u t : State) (typ : Nat) (body : List W64) : Prop := ∃ w : Pending,
      (partOf t f).journal.waiting = (partOf u f).journal.waiting ++ [w] ∧ (partOf t f).journal.nextJseq = (partOf u f).journal.nextJseq + 1 ∧
      w.jseq = (partOf u f).journal.nextJseq ∧ w.cmdSeq = seq ∧ w.func = f ∧
      w.item.typ = typ ∧ w.item.stream = id ∧ w.item.body = body ∧ w.mirrored = false ∧ (partOf t f).str = (partOf u f).str ∧ t.mem = u.mem ∧
      ∃ k : Packet, t.fab.out = u.fab.out ++ [k] ∧ k.kind = 9 ∧ k.dst = (partOf u f).vd.partner
    (∀ m ∈ p.journal.waiting, m.jseq ≠ j) →
    (∀ y ∈ [(Instr.streamPause f seq, 0x24, 3), (.streamResume f seq, 0x25, 4), (.streamCancel f seq, 0x26, 5), (.streamClose f seq, 0x27, 6)],
      startedCmd s f 1 seq y.2.1 = some c →
      (streamHome s f id = s.glb.moduleId → acceptedIn y.2.2 x = false → ∃ t, exec y.1 s = .next t ∧ completes s t f 1 seq 0x14 0) ∧
      (streamHome s f id = s.glb.moduleId → acceptedIn y.2.2 x = true → p.vd.partnerValid = true → ∃ t, exec y.1 s = .next t ∧ queued s t y.2.2 []) ∧
      (streamHome s f id ≠ s.glb.moduleId → ∃ t, exec y.1 s = .next t ∧ (∃ k : Packet, t.fab.out = s.fab.out ++ [k] ∧ k.dst = streamHome s f id ∧ k.kind = 8) ∧
        onlyPart { s with fab := t.fab } t f ∧ (partOf t f).str = p.str)) ∧
    (startedCmd s f 1 seq 0x24 = some c → streamHome s f id = s.glb.moduleId → acceptedIn 3 x = true → x.state ≠ .scheduled → p.vd.partnerValid = false → ∃ t,
      exec (.streamPause f seq) s = .next t ∧ streamOf t f id = { x with state := .paused } ∧ (∀ k, k ≠ id → streamOf t f k = streamOf s f k) ∧
      ∃ d, findCmd t f 1 seq = some d ∧ d.phase = .done ∧ d.status = 0 ∧ d.result = x.reqTag.toNat) ∧
    (∀ (m : Member) (u : State) (bs : List Byte), startedCmd s f 1 seq 0x22 = some c →
      openRuns s f c = false → tabGet (0, 0) p.str.away id = (0, 0) →
      p.vd.members.find? (fun m => m.rank == bits (cmdWord c 128) 19 0) = some m → m.modId = s.glb.moduleId → cmdDurable c = false →
      (let w (i : Nat) : Nat := cmdWord c (16 + 8 * i)
       openCheck s f w (bits (cmdWord c 128) 19 0) false = none → ssRead s f seq (slotFrom w).prompt (4 * (slotFrom w).promptLen) = (u, .ok bs) →
       homeUsed u + 64 * (1 + (16 + (pieces 8 bs).length + 7) / 8) + 256 ≤ 2 ^ 31 → (partOf u f).vd.partnerValid = true → ∃ t, exec (.streamOpen f seq) s = .next t ∧
       queued u t 1 ((List.range 14).map (fun i => BitVec.ofNat 64 (w i)) ++ [BitVec.ofNat 64 (bits (cmdWord c 128) 19 0), 0] ++ promptWords bs))) ∧
    (∀ st : Nat, startedCmd s f 1 seq 0x22 = some c → openRuns s f c = false → openElsewhere s f c = some st → ∃ t,
      exec (.streamOpen f seq) s = .next t ∧ completes s t f 1 seq st 0) ∧
    ∀ (u : State) (bs : List Byte), startedCmd s f 1 seq 0x23 = some c → streamHome s f id = s.glb.moduleId → cmdDurable c = false →
      x.state = .done → x.keep = true → p.vd.partnerValid = true →
      ssRead s f seq (bits (cmdWord c 24) 51 0) (4 * bits (cmdWord c 32) 63 32) = (u, .ok bs) → (partOf u f).vd.partnerValid = true →
      homeUsed u + 64 * (1 + (8 + (pieces 8 bs).length + 7) / 8) ≤ 2 ^ 31 → ∃ t, exec (.streamAppend f seq) s = .next t ∧
      queued u t 2 ([BitVec.ofNat 64 (bits (cmdWord c 32) 63 32 * 2 ^ 32 + bits (cmdWord c 32) 31 0), BitVec.ofNat 64 (bits (cmdWord c 24) 51 0)] ++
        List.replicate 6 0#64 ++ promptWords bs)

/-- R192, R201, R275–R279, R344: an entry that its partner holds takes effect, unless the store must hold it too; OPEN makes a stream in PREFILL with
its page list and completes with S_ACCEPTED, and is refused where its slot, its ring or its room has gone in the meantime; a failed store write refuses it; the partner's mirror takes an entry that fits. -/
def Obligations.JournalEntries : Prop :=
  ∀ (s : State) (n seq : Nat) (w : Pending) (c : Cmd), n < 64 → findCmd s n 1 seq = some c → (partOf s n).journal.waiting = [w] → w.func = n → w.cmdSeq = seq →
    let done (t : State) (st res : Nat) : Prop := (partOf t n).journal.waiting = [] ∧ ∃ d, findCmd t n 1 seq = some d ∧ d.phase = .done ∧ d.status = st ∧ d.result = res
    let made (t : State) : Prop := ∀ (v : GVersion) (g : GenBlock) (a : Nat) (u : State), w.item.typ = 1 →
      (let x := slotFrom (fun i => (w.item.body.getD i 0).toNat)
       (streamOf s n w.item.stream).state = .free → openStreams s < 262144 → (ringOf s n x.ring).created = true →
       newestGen (partOf s n) x.graph = some (v, g) → takeBlock s n g (listOrder g x.limit) = some (a, u) →
       done t 1 w.item.reqTag.toNat ∧ (streamOf t n w.item.stream).state = .prefill ∧ (streamOf t n w.item.stream).gver = v.ver ∧
       (streamOf t n w.item.stream).kvList = a ∧ (streamOf t n w.item.stream).pages = [] ∧ (streamOf t n w.item.stream).position = 0 ∧
       w.item ∈ (partOf t n).journal.home)
    (w.needStore = false → w.item.typ = 1 → (streamOf s n w.item.stream).state ≠ .free ∨ 262144 ≤ openStreams s ∨
      (ringOf s n (slotFrom (fun i => (w.item.body.getD i 0).toNat)).ring).created = false → ∃ t,
      exec (.journalAccept n w.jseq) s = .next t ∧ done t 0x14 0 ∧ (partOf t n).str = (partOf s n).str) ∧
    (w.needStore = false → w.item.typ = 1 ∨ (w.item.typ = 3 ∧ acceptedIn 3 (streamOf s n w.item.stream) = true ∧ (streamOf s n w.item.stream).state ≠ .scheduled) → ∃ t,
      exec (.journalAccept n w.jseq) s = .next t ∧ made t ∧
      (w.item.typ = 3 → done t 0 w.item.reqTag.toNat ∧ (streamOf t n w.item.stream).state = .paused)) ∧
    (w.needStore = true → w.stored = false → ∃ t, exec (.journalAccept n w.jseq) s = .next t ∧ onlyPart s t n ∧
      (partOf t n).journal.waiting = [{ w with mirrored := true }] ∧ (partOf t n).str = (partOf s n).str) ∧
    (w.needStore = true → w.stored = false →
      (w.mirrored = true → w.item.typ = 1 → ∃ t, exec (.storeWriteComplete n w.jseq true) s = .next t ∧ made t) ∧
      (w.mirrored = false → ∃ t, exec (.storeWriteComplete n w.jseq true) s = .next t ∧ (partOf t n).journal.waiting = [{ w with stored := true }]) ∧
      (w.item.typ ≤ 2 → ∃ t, exec (.storeWriteComplete n w.jseq false) s = .next t ∧ done t 0x14 0 ∧ (partOf t n).str = (partOf s n).str)) ∧
    ∀ it : JournalItem, ∃ t, exec (.journalMirror it) s = .next t ∧
      (mirrorUsed s + itemSize it ≤ 2 ^ 31 → t.atl.mirror = journalAdd s.atl.mirror it) ∧
      (2 ^ 31 < mirrorUsed s + itemSize it → it.typ ≤ 2 → 1 ≤ it.typ → t.atl.mirror = s.atl.mirror) ∧
      t = { s with atl := { s.atl with mirror := t.atl.mirror }, fab := { s.fab with out := t.fab.out } } ∧
      ∃ k : Packet, t.fab.out = s.fab.out ++ [k] ∧ k.kind = 9 ∧ k.dst = it.owner

/-- First: R195, R197: a step takes a stream whose needs fit the budgets: the stream is SCHEDULED at this time, its record places are reserved, and the
step begins with its descriptor in the graph's domain. Stated for one stream, in prefill, whose pages are there.
Second: R190, R191, R202: a slot enters the stream cache, a full cache giving one up; a starved graph's victim is spilled with its pages freed and
reloaded with as many, its contents kept; freed pages go into the graph's reserve and let waiting streams run on. -/
def Obligations.StepSelectionAndStorage : Prop :=
  (∀ (s : State) (n h v id b : Nat) (g : GenBlock) (rest : List Nat),
     let x := streamOf s n id
     let need := Nat.min (x.promptLen - x.prefilled) g.prefillChunk
     genAt (partOf s n) h v = some g → streamsRun (partOf s n) = true → (partOf s n).str.steps = [] → 1 ≤ g.stepsInflight → 1 ≤ g.streamsMax →
     orderedStreams s n h v g (fun y => y.cached && (y.state == .prefill || y.state == .ready)) = [id] →
     orderedStreams s n h v g (fun y => y.state == .spilled) = [] → x.state = .prefill → need ≤ g.tokensMax → 2 ≤ ringFree (partOf s n).vd.front (ringOf s n x.ring) →
     (x.position + need + g.tpp - 1) / g.tpp ≤ x.pages.length → g.domains = b :: rest →
     (∀ (u : State) (va len : Nat), u = { s with parts := u.parts, sur := u.sur } → partOf u n = { partOf s n with str := (partOf u n).str } →
       u.sur = { s.sur with rcache := u.sur.rcache } → b * 4096 ≤ va → va + len ≤ b * 4096 + areaBytes g →
       writeRefused u .ss n va len = none ∧ hostPageOf u n va true = none) → ∃ t,
     exec (.selectStep n h v) s = .next t ∧
     streamOf t n id = { x with state := .scheduled, lastStep := s.pwr.meridian } ∧ (∀ k, k ≠ id → streamOf t n k = streamOf s n k) ∧
     ringOf t n x.ring = { ringOf s n x.ring with reserved := (ringOf s n x.ring).reserved + 2, quota := (ringOf t n x.ring).quota } ∧
     (ringOf t n x.ring).quota ≤ (ringOf s n x.ring).quota - 2 ∧
     (partOf t n).str.nextStep = (partOf s n).str.nextStep + 1 ∧
     ∃ y, stepOf t n (partOf s n).str.nextStep = some y ∧ y.graph = h ∧ y.ver = v ∧ y.descriptor = b * 4096 ∧ y.sent = false ∧ y.nodes = [] ∧
       y.entries = [{ stream := id, d := 0, need, recs := 2, decode := false, specGen := x.specGen, position := x.position, before := x.lastStep }]) ∧
  (∀ (s : State) (n id h v : Nat),
     let x := streamOf s n id
     let others (t : State) : Prop := ∀ k, k ≠ id → streamOf t n k = streamOf s n k
     (x.state ≠ .free → x.cached = false → (waitsStep x = true → (prefetchOrder s n x.graph x.gver).head? = some id) →
       (cachedStreams s < 16384 → ∃ t,
         exec (.streamSlotFetch n id) s = .next t ∧ streamOf t n id = { x with cached := true } ∧ others t ∧ onlyPart s t n) ∧
       ∀ v : Nat × Nat, 16384 ≤ cachedStreams s → slotVictim s n id (if waitsStep x then cacheKey s n id x else 0) = some v → v ≠ (n, id) → ∃ t,
         exec (.streamSlotFetch n id) s = .next t ∧ streamOf t n id = { x with cached := true } ∧
         streamOf t v.1 v.2 = { streamOf s v.1 v.2 with cached := false }) ∧
     (waitsStep x = true → (prefetchOrder s n x.graph x.gver).head? ≠ some id → exec (.streamSlotFetch n id) s = .next s) ∧
     (∀ (g : GenBlock) (a : Nat) (ext data : List Byte) (bad : List Nat) (u u2 : State), genAt (partOf s n) h v = some g → g.spill ≠ 0 → streamsRun (partOf s n) = true →
       (∃ y ∈ (partOf s n).str.streams, y.2.graph = h ∧ y.2.gver = v ∧ y.2.state = .waitKv) → spillVictim s n h v g = some id →
       spillPlace s n g (x.pages.length * g.pools.length * 2 ^ g.pageOrder) = some a → translatePages s n g x.pages false = u →
       pageData u n g x.pages ext = .ok (data, bad) →
       ssWrite (draw u).2 n [(a, (List.range (sealedBytes (x.pages.length * g.pools.length * 2 ^ g.pageOrder))).map (Config.freeByte u.draws))] = .done u2 → ∃ t,
       exec (.kvSpill n ⟨h, v⟩ ext) s = .next t ∧ others t ∧
       (streamOf t n id).pages = [] ∧ (streamOf t n id).image = data ∧ (streamOf t n id).imageBad = bad ∧ (streamOf t n id).spill = a ∧ (streamOf t n id).spilled = x.pages.length ∧
       (streamOf t n id).state = (if x.state = .paused then .paused else .spilled) ∧ (streamOf t n id).position = x.position ∧
       (streamOf t n id).nextSeq = x.nextSeq) ∧
     (∀ (g : GenBlock) (u : State), genAt (partOf s n) x.graph x.gver = some g → x.state = .spilled → canReload s n id g = true → streamsRun (partOf s n) = true →
       (let r := takePages n x.graph g x.spilled s []
        ssWrite r.2 n ((x.kvList, r.1.flatMap (natBytes 4)) :: pageWrites r.2 n g r.1 x.image) = .done u) → ∃ t,
       exec (.kvReload n id true) s = .next t ∧ others t ∧ (streamOf t n id).pages = (takePages n x.graph g x.spilled s []).1 ∧ (streamOf t n id).pages.length = x.spilled ∧ (streamOf t n id).spill = 0 ∧
       (streamOf t n id).spilled = 0 ∧ (streamOf t n id).state = waitsAs x ∧ (streamOf t n id).position = x.position) ∧
     ∀ (w : GVersion) (g : GenBlock) (pg : Nat) (u : State), newestGen (partOf s n) h = some (w, g) → takePage s n h g = some (pg, u) → ∃ t,
       exec (.kvPagesFreed n h) s = .next t ∧ onlyPart s t n ∧ reserveOf t n h = pg :: reserveOf u n h ∧
       ∀ k, streamOf t n k = if (streamOf s n k).state = .waitKv ∧ (streamOf s n k).graph = h then { streamOf s n k with state := waitsAs (streamOf s n k) } else streamOf s n k)

/-- R198, R205–R208, R211: when a step's tasks have ended its verdicts are read and sent to the span; applying a verdict moves SPEC_GEN of a stream
with retracted positions; when every module has applied it the stream stands behind its accepted tokens, with one record for each. -/
def Obligations.Verdicts : Prop :=
  ∀ (s : State) (n step : Nat) (x : Step), stepOf s n step = some x →
    (∀ (v : GVersion) (g : GenBlock) (ext bs : List Byte) (u : State), gversionOf (partOf s n) x.graph x.ver = some v → v.gen = some g → x.sent = false →
      x.nodes.length = v.opcs.length → runStatus v.opcs.length x.nodes = 0 → engineRead s .ss ownWork n x.table (256 * x.entries.length) ext = (u, .ok bs) →
      let read := (pieces 256 bs).map verdictOf
      ((∀ y ∈ x.entries.zip read, verdictLegal (streamOf s n y.1.stream) y.1 y.2 = true ∧ (streamOf s n y.1.stream).cancelling = false ∧
          (streamOf s n y.1.stream).replayStop = none) → ∃ t,
        exec (.stepTasksEnded n step ext) s = .next t ∧
        stepOf t n step = some { x with verdicts := (x.entries.zip read).map (·.2), sent := true, acksLeft := spanOthers u n v g } ∧
        t.fab.out.length = u.fab.out.length + (spanOthers u n v g).length ∧ (partOf t n).str.streams = (partOf u n).str.streams ∧ t.mem = u.mem) ∧
      ((partOf u n).ctx.state = .active → (∃ y ∈ x.entries.zip read, verdictLegal (streamOf s n y.1.stream) y.1 y.2 = false) → ∃ t,
        exec (.stepTasksEnded n step ext) s = .next t ∧ (partOf t n).ctx.state = .lost ∧ (partOf t n).ctx.cause = 0x11)) ∧
    (∀ i : VerdictItem, x.sent = true → x.applied = false → stepItems x = [i] → ∃ t, exec (.verdictApply n step [i]) s = .next t ∧
      stepOf t n step = some { x with applied := true } ∧
      streamOf t n i.stream = { streamOf s n i.stream with specGen := if i.k < i.d then ((streamOf s n i.stream).specGen + 1) % 256 else (streamOf s n i.stream).specGen } ∧
      ∀ k, k ≠ i.stream → streamOf t n k = streamOf s n k) ∧
    ∀ (e : StepEntry) (v : Verdict), x.applied = true → x.acksLeft = [] → x.entries = [e] → x.verdicts = [v] → (partOf s n).str.handoff = [] →
      (partOf s n).ctx.state = .active → (partOf s n).vd.front = true → tabGet none (partOf s n).str.replays e.stream = none →
      let y := streamOf s n e.stream
      y.state = .scheduled → y.cancelling = false → y.pausing = false → y.replayStop = none → e.decode = true → v.count = v.k + 1 → v.count ≤ v.tokens.length →
      (∀ t ∈ v.tokens.take v.count, t.1 ≠ y.stop0 ∧ t.1 ≠ y.stop1) → e.position + v.k + 1 ≠ y.limit → ∃ t,
      exec (.verdictAcksComplete n step) s = .next t ∧ stepOf t n step = none ∧
      (streamOf t n e.stream).position = e.position + v.k + 1 ∧ (streamOf t n e.stream).lastToken = (v.tokens.getD v.k (0, 0)).1 ∧ (streamOf t n e.stream).nextSeq = y.nextSeq + v.count ∧
      (streamOf t n e.stream).ndraft = v.ndraft ∧ (streamOf t n e.stream).state = waitsAs y ∧ (streamOf t n e.stream).pages = y.pages ∧
      ((ringOf s n y.ring).asks = [] → (ringOf t n y.ring).reserved = (ringOf s n y.ring).reserved - e.recs) ∧
      ((ringOf t n y.ring).waiting.map (fun r => (r.1, r.2.1))) =
        ((ringOf s n y.ring).waiting.map (fun r => (r.1, r.2.1))) ++ (List.range v.count).map (fun i => (e.stream, y.nextSeq + i))

/-- R210–R213, R280: a ring is created empty over its HOST spans and destroyed when no stream names it; a released record is written in its place
and counted; a consumer count between the last one and P frees places and wakes streams, any other is ignored. -/
def Obligations.OutputRings : Prop :=
  ∀ (s : State) (n f seq i : Nat) (c : Cmd),
    let done (t : State) (st : Nat) : Prop := ∃ d, findCmd t f 1 seq = some d ∧ d.phase = .done ∧ d.status = st
    let r := ringOf s n i
    let others (t : State) : Prop := ∀ k, k ≠ i → ringOf t n k = ringOf s n k
    (startedCmd s f 1 seq 0x20 = some c → targetPart s f c = some n → bits (cmdWord c 16) 5 0 = i → 8 ≤ bits (cmdWord c 16) 12 8 → bits (cmdWord c 16) 12 8 ≤ 20 →
      cmdWord c 24 % 4096 = 0 → cmdWord c 32 % 8 = 0 → cmdWord c 40 % 8 = 0 → hostSpan (partOf s n) (cmdWord c 24) (32 * 2 ^ bits (cmdWord c 16) 12 8) true = true →
      hostSpan (partOf s n) (cmdWord c 32) 8 true = true → hostSpan (partOf s n) (cmdWord c 40) 8 false = true →
      (r.created = false → ∃ t, exec (.ringCreate f seq) s = .next t ∧ done t 0 ∧ others t ∧
        ringOf t n i = { created := true, base := cmdWord c 24, log2 := bits (cmdWord c 16) 12 8, pidxAddr := cmdWord c 32, cidxAddr := cmdWord c 40 }) ∧
      (r.created = true → ∃ t, exec (.ringCreate f seq) s = .next t ∧ completes s t f 1 seq 0x14 0)) ∧
    (startedCmd s f 1 seq 0x21 = some c → targetPart s f c = some n → bits (cmdWord c 16) 5 0 = i → r.created = true →
      ((∀ x ∈ (partOf s n).str.streams, x.2.state = .free ∨ x.2.ring ≠ i) → (∀ x ∈ (partOf s n).str.away, x.2.1 ≠ i + 1) → ∃ t, exec (.ringDestroy f seq) s = .next t ∧ done t 0 ∧ others t ∧ ringOf t n i = {}) ∧
      ((∃ x ∈ (partOf s n).str.streams, x.2.state ≠ .free ∧ x.2.ring = i) ∨ (∃ x ∈ (partOf s n).str.away, x.2.1 = i + 1) → ∃ t, exec (.ringDestroy f seq) s = .next t ∧ completes s t f 1 seq 0x14 0)) ∧
    (∀ (id q a b : Nat) (y y2 : Bool) (z z2 : Nat) (bs : List Byte) (u : State), r.created = true → (partOf s n).vd.front = true → streamsRun (partOf s n) = true → r.waiting = [(id, q, bs)] →
      r.p < r.c + 2 ^ r.log2 → r.c ≤ r.p → r.p < r.pj + 2 ^ r.log2 → (partOf s n).vd.partnerValid = true → isDurable (partOf s n) id = false →
      (∀ m ∈ (partOf s n).journal.waiting, m.jseq ≠ (partOf s n).journal.nextJseq) →
      hostReady s n [(r.base + 32 * (r.p % 2 ^ r.log2), 32), (r.pidxAddr, 8)] = (u, none) →
      translate u n (r.base + 32 * (r.p % 2 ^ r.log2)) true = .host a y z → translate u n r.pidxAddr true = .host b y2 z2 →
      (portOf u (portFor u ((hostFunc u n).getD n))).waiting = [] →
      logBytes (portOf u (portFor u ((hostFunc u n).getD n))).log + bs.length + 9 ≤ logSize → ∃ t,
      exec (.ringRecordsPublish n i) s = .next t ∧ others t ∧ ringOf t n i = { r with p := r.p + 1, waiting := [], again := false } ∧
      (∃ v w : HostWrite, t.hostOut = u.hostOut ++ [v, w] ∧ v.addr = a ∧ v.data = phasedRecord r r.p bs ∧ w.addr = b ∧ w.data = natBytes 8 (r.p + 1) ∧
        ∀ m ∈ [v, w], m.func = (hostFunc u n).getD n ∧ m.port = portFor u m.func) ∧
      (tabGet freshDigest (partOf t n).str.delivered id).1 = q ∧
      ∃ w : Pending, (partOf t n).journal.waiting = (partOf s n).journal.waiting ++ [w] ∧ w.item.typ = 7) ∧
    ∀ value : W64, r.created = true → (partOf s n).vd.front = true →
      (r.c ≤ value.toNat → value.toNat ≤ r.p → ∃ t, exec (.cidxPoll n i value) s = .next t ∧ (ringOf t n i).c = value.toNat ∧ others t ∧
        (r.asks = [] → ringOf t n i = { r with c := value.toNat }) ∧
        (r.c < value.toNat → ∀ k, streamOf t n k =
          if (streamOf s n k).state = .waitOutput ∧ (streamOf s n k).ring = i then { streamOf s n k with state := waitsAs (streamOf s n k) } else streamOf s n k)) ∧
      (value.toNat < r.c ∨ r.p < value.toNat → ∃ t, exec (.cidxPoll n i value) s = .next t ∧ t.parts = s.parts ∧ t.hostOut = s.hostOut)

/-- R281–R283: replay sets every stream back to the inputs of its journal entry, keeping its place, and resumes selection with no step running; when
every stream has passed what was delivered, the context is ACTIVE again, and what lies unfetched in its queues is not run (log 156). Stated for one stream whose module is not the front. -/
def Obligations.Replay : Prop :=
  ∀ (s : State) (n : Nat), (partOf s n).ctx.state = .recovering →
    (∀ it : JournalItem, (partOf s n).vd.preparing = none → (partOf s n).str.replayOn = false → (partOf s n).vd.front = false → lostItems s n = [] →
      (partOf s n).journal.home = [it] → it.typ = 1 → (streamOf s n it.stream).state ≠ .free → ∃ t, exec (.replayStart n []) s = .next t ∧
      streamOf t n it.stream = { slotFrom (fun i => (it.body.getD i 0).toNat) with
        gver := (streamOf s n it.stream).gver, kvList := (streamOf s n it.stream).kvList, deliveredSeq := (streamOf s n it.stream).deliveredSeq, cached := (streamOf s n it.stream).cached } ∧
      (∀ k, k ≠ it.stream → streamOf t n k = streamOf s n k) ∧ (partOf t n).str.steps = [] ∧ (partOf t n).str.replayOn = true ∧
      (partOf t n).ctx = (partOf s n).ctx ∧ t.mem = s.mem) ∧
    ((partOf s n).str.replayOn = true → (∀ x ∈ (partOf s n).str.streams, replayPassed s n x.1 x.2 = true) → ∃ t, exec (.replayComplete n) s = .next t ∧
      (let qs := tabMapV (fun _ (q : Queue) => { q with stale := (q.sqTail + 2 ^ 32 - q.fetched) % 2 ^ 32 }) (partOf s n).queues
       partOf t n = { partOf s n with ctx := { (partOf s n).ctx with state := .active, replaying := false }, str := { (partOf s n).str with replays := [], replayOn := false }, queues := qs }) ∧
      (∀ m, m ≠ n → partOf t m = partOf s m) ∧ t.mem = s.mem)

/-- R138, R142–R145, R392, R393: a line repair writes the backing data and clears the poison; a failed one loses the contexts that map the line; a row
takes its bank's next spare; a retired page is noted, and what lies there moves. -/
def Obligations.MemoryRepair : Prop :=
  ∀ (s : State),
    (∀ (n pa addr : Nat), isStack pa = true → pa % 128 = 0 → repairDue s n pa = some addr →
      (∀ data : List Byte, data.length = 128 → ∃ t, exec (.lineRepair n pa data) s = .next t ∧ (∀ j, j < 128 → tabGet 0#8 t.mem (pa + j) = data.getD j 0#8) ∧
        memKept s t (fun a => pa ≤ a ∧ a < pa + 128) ∧ memPoisoned t pa 128 = false ∧ t.parts = s.parts ∧ t.slices = s.slices ∧ t.cores = s.cores ∧
        ∀ l, l ≠ pa / 128 → lineMeta t l = lineMeta s l ∨ ∃ e, tabGet none s.cache l = some e ∧ e.dirty = false ∧ lineMeta t l = e.stackMeta) ∧
      ∀ m : Nat, partsMapping s pa = [m] → (partOf s m).ctx.state = .active → ∃ t, exec (.lineRepairFail n pa) s = .next t ∧
        (partOf t m).ctx.state = .lost ∧ (partOf t m).ctx.cause = 0x17) ∧
    (∀ g bank row : Nat, g < 384 → repairable s g = true → (chanOf s g).triggers.contains (bank, row) = true → tabGet 0 (chanOf s g).spares bank < 2 → ∃ t,
      exec (.rowRepair g bank row) s = .next t ∧ t.mem = s.mem ∧ t.parts = s.parts ∧ (∀ h, h ≠ g → chanOf t h = chanOf s h) ∧
      tabGet 0 (chanOf t g).spares bank = tabGet 0 (chanOf s g).spares bank + 1 ∧ (chanOf t g).spareTotal = (chanOf s g).spareTotal + 1 ∧
      (chanOf t g).triggers = (chanOf s g).triggers.filter (· != (bank, row)) ∧ (chanOf t g).retired = (chanOf s g).retired) ∧
    (∀ g page : Nat, g < 384 → page < 32768 → repairable s g = true → (chanOf s g).retired.contains page = false →
      (∃ x ∈ (chanOf s g).triggers, x.2 / 512 = page ∧ 2 ≤ tabGet 0 (chanOf s g).spares x.1) →
      (ownerOf s (chanPa g) = none → ∃ t, exec (.pageRetire g page) s = .next t ∧ t.mem = s.mem ∧ (chanOf t g).retired = (chanOf s g).retired ++ [page] ∧
        ((chanOf t g).retirePending = true ↔ (chanOf s g).retirePending = true ∨ 512 ≤ (chanOf s g).retired.length + 1)) ∧
      ∀ n pa : Nat, ownerOf s (chanPa g) = some n → page < 32576 → pageInUse s n g page = true → pageMoving s g page = false → freePage s n = some pa →
        (chanOf s g).redirect = [] → (∀ h, ∀ x ∈ (chanOf s h).redirect, x.2 ≠ chanPa g + page * 65536) → (∀ j, j < 65536 → redirect s (pa + j) = pa + j) → cacheTrue s →
        pa + 65536 ≤ chanPa g + page * 65536 ∨ chanPa g + page * 65536 + 65536 ≤ pa → ∃ t, exec (.pageRetire g page) s = .next t ∧
        (chanOf t g).retired = (chanOf s g).retired ++ [page] ∧ (chanOf t g).redirect = [(page, pa)] ∧
        (∀ j, j < 65536 → tabGet 0#8 t.mem (pa + j) = tabGet 0#8 s.mem (chanPa g + page * 65536 + j)) ∧
        memKept s t (fun a => pa ≤ a ∧ a < pa + 65536))

/-- First: R126, R131, R134, R140, R141, R146: patrol reads that find nothing, or what the codes correct at the first read or the second, leave memory as it
is; an error in a running core's own local memory stops its task, and no patrol reaches one (log 161); recalibration and refresh only stall; the inner
code's counts are recorded.
Second: R410–R412: a slot of a trained channel serves the one request that waits, marked or not, and counts the line in its class; at half rate every
other slot issues nothing; a mark that has waited its time is cleared. -/
def Obligations.PatrolAndChannelSlots : Prop :=
  (∀ (s : State),
     (∀ (pa : Nat) (errs second : List (Nat × Byte)) (written : Bool), isStack pa = true → repairable s (pa / 0x80000000) = true →
       let es := if badBytes (lineErrs errs 0) > 6 then lineErrs second 0 else lineErrs errs 0
       let kept (t : State) : Prop := (∀ a, tabGet 0#8 t.mem a = tabGet 0#8 s.mem a) ∧ (∀ l, lineMeta t l = lineMeta s l) ∧ t.parts = s.parts
       (badBytes es = 0 → ∃ t, exec (.patrolRead pa errs second written) s = .next t ∧ kept t ∧ t.chans = s.chans ∧
         (tabGet none s.cache (pa / 128) = none → t = s)) ∧
       (1 ≤ badBytes es → badBytes es ≤ 6 → ∃ t, exec (.patrolRead pa errs second written) s = .next t ∧ kept t ∧
         (chanOf t (pa / 0x80000000)).ce = satAdd 0xFFFFFFFF (chanOf s (pa / 0x80000000)).ce 1 ∧
         (3 ≤ badBytes es → Config.rowOf (pa / 128 * 128 % 0x80000000 / 128) ∈ (chanOf t (pa / 0x80000000)).triggers) ∧
         ∀ h, h ≠ pa / 0x80000000 → chanOf t h = chanOf s h)) ∧
     (∀ kind unit word bad : Nat, kind ≤ 6 →
       (∃ t, exec (.sramPatrol kind unit word 0) s = .next t ∧ t = s) ∧
       (∃ t, exec (.sramPatrol kind unit word 1) s = .next t ∧ t.mem = s.mem ∧ t.poison = s.poison ∧ t.parts = s.parts ∧ t.cores = s.cores) ∧
       (2 ≤ bad → kind = 2 → (∀ ok, rangeAt s (clusterPa unit + 64 * word) ok = none) → ∃ t, exec (.sramPatrol kind unit word bad) s = .next t ∧ t.mem = s.mem ∧
         tabGet false t.poison ((clusterPa unit + 64 * word) / 64) = true ∧ t.parts = s.parts ∧
         ∀ w, w ≠ (clusterPa unit + 64 * word) / 64 → tabGet false t.poison w = tabGet false s.poison w) ∧
       (kind ≤ 1 → (coreOf s unit).mode ≠ .running → exec (.sramPatrol kind unit word bad) s = .next s) ∧
       (2 ≤ bad → kind = 0 → (coreOf s unit).mode = .running → (partOf s (coreOf s unit).part).ctx.state = .active → ∃ t,
         exec (.sramPatrol kind unit word bad) s = .next t ∧ (coreOf t unit).mode = .idle ∧ (partOf t (coreOf s unit).part).ctx.state = .lost ∧
         (partOf t (coreOf s unit).part).ctx.cause = 0x17)) ∧
     (∀ g bank : Nat, g < 384 → bank < 2 ^ 32 → (chanOf s g).trained = true →
       (∃ t, exec (.stackRecalibrate g) s = .next t ∧ t = { s with chans := t.chans } ∧
         ∀ h, chanOf t h = if h = g then { chanOf s g with recals := (chanOf s g).recals + 1 } else chanOf s h) ∧
       ∃ t, exec (.stackRefresh g bank) s = .next t ∧ t = { s with chans := t.chans } ∧
         ∀ h, chanOf t h = if h = g then { chanOf s g with refreshes := (chanOf s g).refreshes + 1 } else chanOf s h) ∧
     ∀ stack count : Nat, stack < 12 → ∃ t, exec (.innerEccReadout stack count) s = .next t ∧ t.nv.rseq = s.nv.rseq + 1 ∧ t.mem = s.mem ∧ t.parts = s.parts ∧
       t.chans = s.chans ∧ t.slices = s.slices) ∧
  (∀ (s : State) (g : Nat), g < 384 →
     let c := chanOf s g
     (∀ r : ChanReq, c.trained = true → c.halfRate = false → c.reqs = [r] → r.lines ≤ 1 → r.cls < 8 → ∃ t, exec (.channelSlotIssue g) s = .next t ∧
       t = { s with chans := t.chans, parts := t.parts } ∧ (ownerOf s (chanPa g) = none → t.parts = s.parts) ∧
       (∀ n, ownerOf s (chanPa g) = some n → partOf t n = { partOf s n with counters := tabMod 0 (partOf s n).counters 5 (· + 1) } ∧ ∀ m, m ≠ n → partOf t m = partOf s m) ∧
       (∀ h, h ≠ g → chanOf t h = chanOf s h) ∧ (chanOf t g).reqs = [] ∧ (chanOf t g).slot = false ∧
       tabGet 0 (chanOf t g).lines r.cls = tabGet 0 c.lines r.cls + 1 ∧ ∀ j, j ≠ r.cls → tabGet 0 (chanOf t g).lines j = tabGet 0 c.lines j) ∧
     (c.trained = true → c.halfRate = true → c.slot = false → ∃ t, exec (.channelSlotIssue g) s = .next t ∧ t = { s with chans := t.chans } ∧
       (chanOf t g).reqs = c.reqs ∧ (chanOf t g).lines = c.lines ∧ (chanOf t g).slot = true) ∧
     ∀ k : Nat, ∃ t, exec (.urgentMarkExpiry g k) s = .next t ∧ t = { s with chans := t.chans } ∧ (∀ h, h ≠ g → chanOf t h = chanOf s h) ∧
       (chanOf t g).reqs = c.reqs.map (fun r => { r with urgent := if r.urgent = some k then none else r.urgent }))

/-- R145, R147–R149, R263, R264, R394: SLICE_ERASE zeroes what a releasing slice stores, SLICE_ERASE_END brings it to FREE; RETIRE_PENDING_TAKE holds a
FREE memory slice for its retirement; SELFTEST and MARGIN hold a FREE slice and refuse one on its way; SELFTEST_DONE and MARGIN_SWEEP_END scrub a slice
that passes its test and retire one that fails. Each goes on, for the states and operands stated alone. A test behind an assignment, and the erase of a
slice that a task still uses, wait. -/
def Obligations.SliceMaintenance : Prop :=
  ∀ (s : State) (g k : Nat), g < 384 → k < 64 →
    let zeroed (t : State) : Prop := ∀ a, chanPa g ≤ a → a < chanPa g + reservationAt → tabGet 0#8 t.mem a = 0
    let rest (t : State) (i : Nat) : Prop := ∀ j, j ≠ i → (sliceOf t j).state = (sliceOf s j).state ∧ (sliceOf t j).owner = (sliceOf s j).owner
    ((sliceOf s (64 + g)).state = .releasing ∨ (sliceOf s (64 + g)).state = .scrubbing → ∃ t, exec (.sliceErase (64 + g)) s = .next t ∧
      sliceOf t (64 + g) = { sliceOf s (64 + g) with state := .scrubbing, gated := (sliceOf t (64 + g)).gated } ∧ zeroed t ∧ rest t (64 + g) ∧
      ∀ a, a < chanPa g ∨ chanPa g + reservationAt ≤ a → a < spillBase + chanPa g ∨ spillBase + chanPa g + reservationAt ≤ a →
        tabGet 0#8 t.mem a = tabGet 0#8 s.mem a) ∧
    ((sliceOf s k).state = .releasing → sliceIdle s k = false → exec (.sliceErase k) s = .next s) ∧
    ((sliceOf s k).state = .scrubbing → ∃ t, exec (.sliceErase k) s = .next t ∧ (sliceOf t k).state = .scrubbing ∧ rest t k ∧
      ∀ i, i < 16 → coreOf t (16 * k + i) = { nextId := (coreOf s (16 * k + i)).nextId }) ∧
    ((sliceOf s (64 + g)).state = .scrubbing → s.atl.releasing = none → (partOf s (sliceOf s (64 + g)).owner).vd.released = false → ∃ t,
      exec (.sliceEraseEnd (64 + g)) s = .next t ∧ (sliceOf t (64 + g)).state = .free ∧ zeroed t ∧ rest t (64 + g) ∧
      (sliceOf t (64 + g)).ret = (sliceOf s (64 + g)).ret ∧ (sliceOf t (64 + g)).owner = (if (sliceOf s (64 + g)).ret then (sliceOf s (64 + g)).owner else 0)) ∧
    ((chanOf s g).retirePending = true → (sliceOf s (64 + g)).state = .free → (sliceOf s (64 + g)).pending = false → ∃ t,
      exec (.retirePendingTake g) s = .next t ∧ t = { s with slices := t.slices } ∧ rest t (64 + g) ∧
      sliceOf t (64 + g) = { sliceOf s (64 + g) with state := .held, testing := true, asked := true }) ∧
    (∀ (seq : Nat) (c : Cmd),
      let x := sliceOf s (testSlice c)
      let runs (i : Instr) (opc : Nat) : Prop := startedCmd s 64 5 seq opc = some c → c.moved = 0 → (opc = 0x63 → (chanOf s (testSlice c - 64)).triggers = []) →
        (x.state = .free → x.pending = false → ∃ t, exec i s = .next t ∧ sliceOf t (testSlice c) = { x with state := .held, testing := true, asked := true } ∧
          rest t (testSlice c) ∧ (opc = 0x63 → (chanOf t (testSlice c - 64)).margining = true) ∧ ∃ d, findCmd t 64 5 seq = some d ∧ d.phase = c.phase ∧ d.moved = 3) ∧
        (x.state = .free → x.pending = true → ∃ t, exec i s = .next t ∧ t.slices = s.slices ∧ ∃ d, findCmd t 64 5 seq = some d ∧ d.phase = c.phase ∧ d.moved = 5) ∧
        (x.state = .held ∨ x.state = .scrubbing ∨ x.state = .releasing ∨ x.state = .retired → ∃ t, exec i s = .next t ∧ completes s t 64 5 seq 0x14 0) ∧
        (x.state = .assigned → takeRefused s x.owner (testSlice c) = true → ∃ t, exec i s = .next t ∧ completes s t 64 5 seq 0x14 0)
      runs (.selftest 64 seq) 0x62 ∧ runs (.margin 64 seq) 0x63) ∧
    (∀ (c : Cmd) (result : Nat), inTest s 0x62 = some c → testSlice c = k → (sliceOf s k).state = .held →
      (result = 0 → ∃ t, exec (.selftestDone result) s = .next t ∧ sliceOf t k = { sliceOf s k with state := .scrubbing, testing := false, gated := false } ∧ rest t k ∧
        ∃ d ∈ (queueOf t 64 5).cmds, d.seq = c.seq ∧ d.moved = 4) ∧
      (result ≠ 0 → ∃ t, exec (.selftestDone result) s = .next t ∧ (sliceOf t k).state = .retired ∧ (sliceOf t k).owner = 0 ∧ rest t k ∧ k ∈ t.nv.retiredSlices ∧
        ∃ d ∈ (queueOf t 64 5).cmds, d.seq = c.seq ∧ d.phase = .done ∧ d.status = 0 ∧ d.result = result % 2 ^ 8)) ∧
    (∀ eyes : List (Nat × Nat), eyes.length = 72 → (chanOf s g).margining = true → (sliceOf s (64 + g)).state = .held →
      ((∀ e ∈ eyes, 30 ≤ e.1 ∧ 35 ≤ e.2) → ∃ t, exec (.marginSweepEnd g eyes) s = .next t ∧ (sliceOf t (64 + g)).state = .scrubbing ∧ rest t (64 + g) ∧ (chanOf t g).margining = false ∧
        (chanOf t g).marginFail = false ∧ (chanOf t g).trained = true) ∧
      ((∃ e ∈ eyes, e.1 < 30 ∨ e.2 < 35) → ∃ t, exec (.marginSweepEnd g eyes) s = .next t ∧ (sliceOf t (64 + g)).state = .retired ∧ rest t (64 + g) ∧ (chanOf t g).marginFail = true ∧ 64 + g ∈ t.nv.retiredSlices))

/-- R376, R378–R380, R389, R390: the end of a fold window writes its record under the next RSEQ; the driver's count frees ring places; a declared hang,
or waits that wait on one another in two sweeps, lose the context with S_TIMEOUT; a dump is written and copied to the host. -/
def Obligations.ErrorReports : Prop :=
  ∀ (s : State),
    (∀ r : ErrRec, s.err.folds = [r] → ∃ t, exec (.foldWindowEnd r.cls r.code r.utype r.uindex r.vdid) s = .next t ∧ t.err.folds = [] ∧
      t.nv.rseq = s.nv.rseq + 1 ∧ tabGet none t.err.buf ((s.nv.rseq + 1) % Config.errBuf) = some { r with rseq := s.nv.rseq + 1 } ∧
      t.parts = s.parts ∧ t.mem = s.mem) ∧
    (∀ v : W32, ((v.toNat + 2 ^ 32 - s.err.cidx) % 2 ^ 32 ≤ (s.err.pidx + 2 ^ 32 - s.err.cidx) % 2 ^ 32 → ∃ t, exec (.errRingCidxWrite v) s = .next t ∧
        t.err.cidx = v.toNat ∧ t.nv = s.nv ∧ t.parts = s.parts) ∧
      ((s.err.pidx + 2 ^ 32 - s.err.cidx) % 2 ^ 32 < (v.toNat + 2 ^ 32 - s.err.cidx) % 2 ^ 32 → ∃ t, exec (.errRingCidxWrite v) s = .next t ∧
        t = { s with err := { s.err with cidxLog := true } })) ∧
    (∀ n : Nat, n < 64 → (partOf s n).vd.used = true →
      ((partOf s n).ctx.state = .active → ∃ t, exec (.errHang n) s = .next t ∧ (partOf t n).ctx.state = .lost ∧ (partOf t n).ctx.cause = 0x12 ∧
        t.err.hangPart = n ∧ t.slices = s.slices ∧ ∀ m, m ≠ n → (partOf t m).ctx = (partOf s m).ctx) ∧
      ((partOf s n).ctx.state ≠ .active → ∃ t, exec (.errHang n) s = .next t ∧ t = { s with err := { s.err with hangPart := n } })) ∧
    (∀ (vdid us n : Nat) (waits : List WaitEdge), partOfVdid s vdid = some n → isArbiter (partOf s n).vd = true → 4 < (partOf s n).vd.members.length →
      let lasting := waits.filter (fun e => (tabGet [] s.err.prevSweep vdid).any (fun x => x.kind == e.kind && x.waiter == e.waiter && x.inst == e.inst))
      (waitCycle lasting = [] → ∃ t, exec (.wfgSweep vdid waits us) s = .next t ∧ t = { s with err := t.err } ∧ tabGet [] t.err.prevSweep vdid = waits) ∧
      (waitCycle lasting ≠ [] → (partOf s n).ctx.state = .active → ∃ t, exec (.wfgSweep vdid waits us) s = .next t ∧ (partOf t n).ctx.state = .lost ∧
        (partOf t n).ctx.cause = 0x12 ∧ t.err.declared = satAdd 0xFFFF s.err.declared 1)) ∧
    (s.err.dumpValid = false →
      (∀ (r reason : Nat) (cart : Bool), s.err.failing = some r → ∃ t, exec (.crashDump reason cart) s = .next t ∧ t.err.failing = none ∧ t.err.dumpValid = true ∧
        t.err.dumpReason = r ∧ 4096 ≤ t.err.dumpBytes ∧ t.err.dumpBytes ≤ 0x20000000 ∧ t.nv = s.nv ∧ t.glb.idValid = false ∧ t.glb.moduleId = 0 ∧
        (s.glb.idValid = true → t.fab.modidReg = s.glb.moduleId) ∧ t.glb.ready = false ∧
        t.cores = [] ∧ t.pending = s.pending ∧ t.pwr.meridian = s.pwr.meridian) ∧
      (s.err.failing = none → ∃ t, exec (.crashDump 4 false) s = .next t ∧ t.err.dumpValid = true ∧ t.err.dumpReason = 4 ∧
        t = { s with err := t.err, draws := t.draws })) ∧
    ∀ addr : W64, (s.err.dumpValid = false → ∃ t, exec (.errDumpDest addr) s = .next t ∧ t = { s with err := { s.err with dumpDest := addr.toNat / 4096 * 4096 } }) ∧
      (s.err.dumpValid = true → ∃ t, exec (.errDumpDest addr) s = .next t ∧ t.err.dumpDest = addr.toNat / 4096 * 4096 ∧ ∃ w : HostWrite,
        t.hostOut = s.hostOut ++ [w] ∧ w.addr = addr.toNat / 4096 * 4096 ∧ w.data.length = s.err.dumpBytes)

/-- R381, R383, R384, R386–R388, R249: a processor, engine or monitor that stops fails the module, and its contexts are lost or recover as their front
stands; a failed stack's channels leave training and its slices their partitions; a declared module is absent; what returns is present again. -/
def Obligations.PartFailures : Prop :=
  ∀ (s : State),
    (∀ (i : Instr) (reason n : Nat), (∃ p, p ≤ 4 ∧ i = .processorWatchdogExpiry p ∧ reason = 2) ∨ (∃ e, e ≤ 15 ∧ i = .engineStall e ∧ reason = 1) ∨
        (i = .cartoucheMonitorTimeout ∧ reason = 1) → s.err.failing = none → livePartsOf s = [n] → (partOf s n).ctx.state = .active → ∃ t, exec i s = .next t ∧
      t.err.failing = some reason ∧ (partOf t n).ctx.state = (if frontHolds s n then .recovering else .lost) ∧ (partOf t n).ctx.cause = 0x11 ∧ t.slices = s.slices) ∧
    (∀ vdid modId edition n : Nat, partOfVdid s vdid = some n →
      (modId = s.glb.moduleId → s.err.failing = none → ∃ t, exec (.failureDeclaration vdid modId edition) s = .next t ∧ t.err.failing = some 1) ∧
      (modId ≠ s.glb.moduleId → ∃ t, exec (.failureDeclaration vdid modId edition) s = .next t ∧ t.err.failing = s.err.failing ∧
        (partOf t n).vd.members = (partOf s n).vd.members.map (fun m => if m.modId = modId then { m with present := false } else m)) ∧
      (2 ≤ (partOf s n).vd.members.length → (partOf s n).ctx.state = .active → ∃ t, exec (.isolationTimeout vdid) s = .next t ∧
        (partOf t n).ctx.state = .recovering ∧ t.slices = s.slices ∧
        (partOf t n).vd.members = (partOf s n).vd.members.map (fun m => if m.rank = (partOf s n).vd.rank then { m with present := false } else m)) ∧
      (∀ (rank : Nat) (m : Member), (partOf s n).vd.members.find? (fun m => m.rank == rank) = some m → (rank = (partOf s n).vd.rank → s.glb.ready = true) → ∃ t,
        exec (.moduleRecovery vdid rank edition true) s = .next t ∧
        (partOf t n).vd.members.map (fun m => (m.rank, m.modId, m.present)) =
          (partOf s n).vd.members.map (fun m => (m.rank, m.modId, m.present || m.rank == rank))) ∧
      ((partOf s n).ctx.state = .destroying → ∃ t, exec (.resetReadyTimeout vdid modId) s = .next t ∧ t.cq.waitReset = s.cq.waitReset.filter (· != modId) ∧
        t.slices = s.slices)) ∧
    (∀ (i : Instr) (g : Nat), g < 384 → (chanOf s g).trained = true → i = .stackTrainingLoss g ∨ i = .stackControllerStall (g / 32) → ∃ t, exec i s = .next t ∧
      (∀ j, chanOf t j = if j / 32 = g / 32 then { chanOf s j with trained := false, margining := false } else chanOf s j) ∧
      ∀ j, sliceOf t j = if 64 + 32 * (g / 32) ≤ j ∧ j < 96 + 32 * (g / 32) ∧ (sliceOf s j).state = .assigned then { sliceOf s j with state := .held, ret := true } else sliceOf s j) ∧
    (∀ k : Nat, k < 12 → (∀ i, i < 32 → (chanOf s (32 * k + i)).trained = false) → ∃ t, exec (.stackRecovery k []) s = .next t ∧
      ∀ i, i < 32 → (sliceOf s (64 + 32 * k + i)).state ≠ .retired → (chanOf t (32 * k + i)).trained = true ∧
        ((sliceOf s (64 + 32 * k + i)).state = .free ∨ ((sliceOf s (64 + 32 * k + i)).state = .held ∧ (sliceOf s (64 + 32 * k + i)).testing = false) →
          (sliceOf t (64 + 32 * k + i)).state = .scrubbing)) ∧
    ∀ n : Nat, (partOf s n).ctx.state = .recovering → isArbiter (partOf s n).vd = true →
      (lostRanges s n = [] → ∃ t, exec (.recoveryReplace n) s = .next t ∧ t = s) ∧
      ∀ (r : Range) (a : Nat) (ds : List Nat), lostRanges s n = [r] →
        chooseExtent s n 0 ((placeSlices s n).filter (fun g => !(heldChans s n).contains g)) r.n (r.len / r.n) = some (a, ds) → ∃ t,
        exec (.recoveryReplace n) s = .next t ∧
        (partOf t n).ranges = (partOf s n).ranges.map (fun x => if x.base = r.base then { r with modId := s.glb.moduleId, offset := a, targets := ds.map (fun d => (0, false, d)) } else x)

/-- R256–R264, R273, R290: an operation of ATL_CTL whose descriptor or checks fail changes nothing but its status; a creation builds the partition with
its slices, VDID and map; one behind a maintenance request waits; growth and shrinking change slices at a new edition; a release empties the partition; VD_SET sets guarantees; RESERVE marks
slices, answers why not, or waits (log 162). Stated for the part on this module. -/
def Obligations.Composition : Prop :=
  ∀ (s : State) (words : List W64) (e : Entry), s.atl.go = true →
    let me := s.glb.moduleId
    let ended (t : State) (status reason : Nat) : Prop := t.atl.go = false ∧ t.atl.status = status ∧ t.atl.reason = reason
    let refuses (i : Instr) (status reason entry : Nat) : Prop := ∃ t, exec i s = .next t ∧ t = { s with atl := t.atl } ∧ ended t status reason ∧ t.atl.entry = entry
    (∀ (i : Instr) (op x : Nat), (i = .vdCreate words ∧ op = 1 ∧ s.atl.creating = none) ∨ (i = .vdGrow words ∧ op = 2 ∧ s.atl.creating = none ∧ s.atl.settling = none) ∨
        (i = .vdShrink words ∧ op = 3 ∧ s.atl.settling = none) ∨ (i = .vdRelease words ∧ op = 4 ∧ s.atl.releasing = none) ∨
        (i = .vdSet words ∧ op = 5 ∧ s.atl.settling = none) → s.atl.op = op → descError op words = some x → refuses i 0x15 0 x) ∧
    (∀ x : Nat, s.atl.op = 2 → s.atl.creating = none → s.atl.settling = none → descError 2 words = none →
      secondStandby s (descVdid words) (descEntries words) = some x → refuses (.vdGrow words) 0x15 0 x) ∧
    (∀ (i : Instr) (op r : Nat), (i = .vdGrow words ∧ op = 2 ∧ s.atl.creating = none ∧ s.atl.settling = none ∧ secondStandby s (descVdid words) (descEntries words) = none) ∨ (i = .vdShrink words ∧ op = 3 ∧ s.atl.settling = none) ∨
        (i = .vdRelease words ∧ op = 4 ∧ s.atl.releasing = none) ∨ (i = .vdSet words ∧ op = 5 ∧ s.atl.settling = none) → s.atl.op = op → descError op words = none →
      frontFor s (descVdid words) = .error r → refuses i 0x14 r 0xFFFF) ∧
    (∀ i : Instr, (i = .vdCreate words ∧ s.atl.op = 1 ∧ descError 1 words = none) ∨ (i = .vdGrow words ∧ s.atl.op = 2 ∧ s.atl.settling = none ∧ descError 2 words = none ∧
        secondStandby s (descVdid words) (descEntries words) = none ∧ ∃ n, frontFor s (descVdid words) = .ok n) → s.atl.creating = none →
      behindTest s (ownSlices s (descEntries words)) = true → exec i s = .next s) ∧
    (s.atl.op = 1 → s.atl.creating = none → descError 1 words = none → behindTest s (ownSlices s (descEntries words)) = false →
      (∀ r x : Nat, createRefused s (descEntries words) = some (r, x) → refuses (.vdCreate words) 0x14 r x) ∧
      ∀ n : Nat, createRefused s (descEntries words) = none → descEntries words = [e] → freePart s = some n → s.glb.idValid = false → s.atl.given = 0 → ∃ t,
        exec (.vdCreate words) s = .next t ∧ ended t 0 0 ∧ t.atl.vdid = freshVdid s ∧ t.atl.local_ = n ∧
        (let vd := (partOf t n).vd
         vd.used = true ∧ vd.vdid = freshVdid s ∧ vd.edition = 1 ∧ vd.rank = 0 ∧ vd.front = true ∧ vd.memGuar = e.guar ∧ vd.linkGuar = e.linkGuar ∧
         vd.members = [{ rank := 0, modId := me, compute := (bitList 64 e.compute).length, memory := (bitList 384 e.memory).length, links := (bitList 24 e.links).length,
                          partner := e.partner, partnerValid := e.partnerValid, present := true }]) ∧
        (partOf t n).keys.newest = 1 ∧ (∀ k ∈ entrySlices e, (sliceOf t k).state = .assigned ∧ (sliceOf t k).owner = n) ∧
        (∀ k, k ∉ entrySlices e → (sliceOf t k).state = (sliceOf s k).state ∧ (sliceOf t k).owner = (sliceOf s k).owner) ∧
        ∀ m, m ≠ n → partOf t m = partOf s m) ∧
    (∀ n : Nat, frontFor s (descVdid words) = .ok n → isArbiter (partOf s n).vd = true → (partOf s n).vd.preparing = none → descEntries words = [e] → e.modId = me →
      (∃ m ∈ (partOf s n).vd.members, m.modId = me) → s.atl.settling = none →
      (s.atl.op = 2 → s.atl.creating = none → descError 2 words = none → secondStandby s (descVdid words) [e] = none → behindTest s (ownSlices s [e]) = false →
        growRefused s n [e] = none → ∃ t, exec (.vdGrow words) s = .next t ∧
        (∀ k ∈ entrySlices e, (sliceOf t k).state = .assigned ∧ (sliceOf t k).owner = n) ∧ (partOf t n).vd.edition = ((partOf s n).vd.edition + 1) % 2 ^ 32 ∧
        t.atl.settling = some ((partOf s n).vd.vdid, ((partOf s n).vd.edition + 1) % 2 ^ 32) ∧ t.atl.creating = none ∧ t.atl.go = true) ∧
      (s.atl.op = 3 → descError 3 words = none →
        (s.atl.creating = none → shrinkRefused s n [e] = none →
          ((shrinkRoom s n [e]).2 = none → exec (.vdShrink words) s = .next (shrinkRoom s n [e]).1) ∧
          ((shrinkRoom s n [e]).2 = some false → ∃ t, exec (.vdShrink words) s = .next t ∧ ended t 0x14 7 ∧ t.mem = s.mem ∧ t.slices = s.slices)) ∧
        (s.atl.creating = none → shrinkRefused s n [e] = none → (shrinkRoom s n [e]).2 = some true → ∃ t, exec (.vdShrink words) s = .next t ∧ t.atl.creating = some (words, []) ∧
          (∀ k ∈ entrySlices e, k ∈ (partOf t n).vd.leaving) ∧ (partOf t n).vd.edition = ((partOf s n).vd.edition + 1) % 2 ^ 32 ∧ t.slices = s.slices) ∧
        (s.atl.creating.isSome = true → s.atl.clearing = [] → leavingClear s n = true → (partOf s n).str.handoff = [] → ∃ t, exec (.vdShrink words) s = .next t ∧ t.atl.creating = none ∧
          t.atl.settling = some ((partOf s n).vd.vdid, ((partOf s n).vd.edition + 1) % 2 ^ 32) ∧
          ∀ k ∈ entrySlices e, (sliceOf s k).state = .assigned → (sliceOf s k).owner = n → (sliceOf t k).state = .releasing)) ∧
      (s.atl.op = 5 → descError 5 words = none → e.partnerValid = false →
        admitted s { e with memory := maskOf (memSlices s n), links := maskOf ((assignedOf s n isLink).map (· - 448)) } = true → ∃ t,
        exec (.vdSet words) s = .next t ∧ (partOf t n).vd.memGuar = e.guar ∧ (partOf t n).vd.linkGuar = e.linkGuar ∧ (partOf t n).vd.partnerValid = false ∧
        (partOf t n).vd.edition = ((partOf s n).vd.edition + 1) % 2 ^ 32 ∧ t.slices = s.slices)) ∧
    (∀ n : Nat, s.atl.op = 4 → s.atl.releasing = none → descError 4 words = none → frontFor s (descVdid words) = .ok n →
      ((partOf s n).ctx.state ≠ .none → refuses (.vdRelease words) 0x14 12 0xFFFF) ∧
      ((partOf s n).ctx.state = .none → otherMembers s n = [] → (partOf s n).vf.moved = false → (∃ k, (sliceOf s k).state = .assigned ∧ (sliceOf s k).owner = n) → ∃ t,
        exec (.vdRelease words) s = .next t ∧ t.atl.go = true ∧ (partOf t n).vd.released = true ∧ t.atl.releasing = some ((partOf s n).vd.vdid, []) ∧
        ∀ k, (sliceOf s k).state = .assigned → (sliceOf s k).owner = n → (sliceOf t k).state = .releasing)) ∧
    (∀ (w : List W64) (m : Nat) (ms : List Nat), s.atl.creating = some (w, m :: ms) → ∃ t, exec .reserveTimeout s = .next t ∧ ended t 0x14 3 ∧ t.atl.creating = none ∧
      t.atl.reserved = s.atl.reserved.filter (fun r => r.1 != me) ∧ t.parts = s.parts) ∧
    ∀ (origin vdid : Nat) (slices granules : List Nat),
      (behindTest s slices = true → ∃ t, exec (.reserve origin vdid slices granules) s = .next t ∧
        t = { s with atl := { s.atl with waiting := s.atl.waiting ++ [(origin, vdid, slices, granules)] } }) ∧
      (∀ r, behindTest s slices = false → reserveRefused s origin vdid slices granules = some r → ∃ t, exec (.reserve origin vdid slices granules) s = .next t ∧ t = { s with fab := t.fab } ∧
        ∃ k : Packet, t.fab.out = s.fab.out ++ [k] ∧ k.kind = 9 ∧ k.dst = origin ∧ k.operand = ctlOperand 5 r) ∧
      (behindTest s slices = false → reserveRefused s origin vdid slices granules = none → ∃ t, exec (.reserve origin vdid slices granules) s = .next t ∧
        t.atl.reserved = s.atl.reserved ++ [(origin, slices, granules)] ∧
        (∀ k, sliceOf t k = if k ∈ slices then { sliceOf s k with pending := true } else sliceOf s k) ∧ ∃ k : Packet, t.fab.out = s.fab.out ++ [k] ∧ k.dst = origin)

/-- R264–R268, R272, R274: a member adopts the next edition, opens the window for the old one and acknowledges; the arbiter settles after the last
acknowledgement; the window closes; what was held too long goes back; a module that does not acknowledge, or a failed arbiter, is absent; slices come
back and guarantees scale. -/
def Obligations.Editions : Prop :=
  ∀ (s : State) (vdid n : Nat), partOfVdid s vdid = some n →
    let vd := (partOf s n).vd
    (vd.preparing = none → vd.heldPkts = [] → ∃ t, exec (.prepare vdid ((vd.edition + 1) % 2 ^ 32) .other) s = .next t ∧
      (partOf t n).vd = { vd with edition := (vd.edition + 1) % 2 ^ 32, overlap := true } ∧ (∀ m, m ≠ n → partOf t m = partOf s m) ∧
      ∃ k : Packet, t.fab.out = s.fab.out ++ [k] ∧ k.kind = 9 ∧ k.dst = arbiterModule vd ∧ k.operand = ctlOperand 2 0) ∧
    (∀ edition : Nat, edition ≠ (vd.edition + 1) % 2 ^ 32 → ∃ t, exec (.prepare vdid edition .other) s = .next t ∧ t = s) ∧
    (∀ (edition : Nat) (ch : MapChange), vd.preparing = some (edition, [], ch) → vd.queued = [] → ∃ t, exec (.settle vdid edition) s = .next t ∧
      (partOf t n).vd = { vd with preparing := none } ∧ t.fab.out.length = s.fab.out.length + (otherMembers s n).length ∧
      (s.atl.settling = some (vdid, edition) → t.atl.go = false ∧ t.atl.status = 0)) ∧
    (vd.preparing = none → ∃ t, exec (.overlapWindowClose vdid) s = .next t ∧ onlyPart s t n ∧ partOf t n = { partOf s n with vd := { vd with overlap := false } }) ∧
    (∃ t, exec (.editionHoldTimeout vdid) s = .next t ∧ (partOf t n).vd.heldPkts = vd.heldPkts.filter (fun p => p.edition != (vd.edition + 1) % 2 ^ 32) ∧
      t.fab.out = s.fab.out ++ (vd.heldPkts.filter (fun p => p.edition == (vd.edition + 1) % 2 ^ 32)).map (fun p => returned p 1 vd.edition)) ∧
    (∀ (e m : Nat) (left : List Nat) (ch : MapChange), vd.preparing = some (e, left, ch) → m ∈ left → ∃ t, exec (.editionAckTimeout vdid m) s = .next t ∧
      (partOf t n).vd.members = vd.members.map (fun x => if x.modId = m then { x with present := false } else x)) ∧
    (∀ failed : Nat, failed = arbiterModule vd → failed ≠ s.glb.moduleId → ∃ t, exec (.arbiterTakeover vdid failed) s = .next t ∧
      (partOf t n).vd.members = vd.members.map (fun x => if x.modId = failed then { x with present := false } else x)) ∧
    (∀ k : Nat, (sliceOf s k).state = .free → (sliceOf s k).ret = true →
      ((sliceOf s k).owner = n → vd.released = false → vd.used = true → vd.preparing = none → isArbiter vd = true → ∃ t, exec (.sliceReturn k) s = .next t ∧
        (sliceOf t k).state = .assigned ∧ (sliceOf t k).owner = n ∧ (sliceOf t k).ret = false ∧ (partOf t n).vd.edition = (vd.edition + 1) % 2 ^ 32) ∧
      ((partOf s (sliceOf s k).owner).vd.used = false → ∃ t, exec (.sliceReturn k) s = .next t ∧ t = { s with slices := t.slices } ∧
        sliceOf t k = { sliceOf s k with ret := false, owner := 0 })) ∧
    ∀ g capacity : Nat, g < 384 → ∃ t, exec (.capacityChange (64 + g) capacity) s = .next t ∧ chanOf t g = { chanOf s g with capacity := capacity } ∧
      (∀ h, h ≠ g → chanOf t h = chanOf s h) ∧ t.slices = s.slices ∧ t.mem = s.mem ∧
      (livePartsOf s = [n] → memSlices s n = [g] → (partOf t n).vd.memScale = Nat.min 128 (scaleOf (chanShare capacity) vd.memGuar.sum))

/-- R269–R271: a stream's state handed over: the new owner holds it and its token and answers; the old one discards its copy and lets go; the new one
serves; without confirmation the arbiter names an owner at a new edition. -/
def Obligations.Handoff : Prop :=
  ∀ (s : State) (vdid n stream edition owner : Nat), partOfVdid s vdid = some n →
    let me := s.glb.moduleId
    let p := partOf s n
    (∀ slot : List W64, owner = me → editionLater (tabGet (0, 0) p.str.tokens stream).1 edition = false → slot ≠ [] → ∃ t,
      exec (.transfer vdid stream edition owner slot []) s = .next t ∧ streamOf t n stream = slotOfWords slot ∧ (∀ k, k ≠ stream → streamOf t n k = streamOf s n k) ∧
      tabGet (0, 0) (partOf t n).str.tokens stream = (edition, owner) ∧ (stream, edition, owner, true) ∈ (partOf t n).str.handoff ∧
      ∃ k : Packet, t.fab.out = s.fab.out ++ [k] ∧ k.kind = 9 ∧ k.dst = streamHome s n stream ∧ k.operand = ctlOperand 11 0) ∧
    (owner ≠ me → p.str.handoff.contains (stream, edition, owner, true) = true → p.vd.partnerValid = false → ∃ t, exec (.held vdid stream edition owner) s = .next t ∧
      streamOf t n stream = {} ∧ (∀ k, k ≠ stream → streamOf t n k = streamOf s n k) ∧ tabGet (0, 0) (partOf t n).str.tokens stream = (edition, owner) ∧
      (partOf t n).str.handoff = p.str.handoff.filter (fun h => h.1 != stream) ∧ ∃ k : Packet, t.fab.out = s.fab.out ++ [k] ∧ k.dst = owner ∧ k.operand = ctlOperand 12 0) ∧
    (p.str.handoff.contains (stream, edition, me, true) = true → ∃ t, exec (.released vdid stream edition) s = .next t ∧ onlyPart s t n ∧
      partOf t n = { p with str := { p.str with handoff := p.str.handoff.filter (fun h => h.1 != stream) } }) ∧
    ∀ e o j : Nat, isArbiter p.vd = true → p.vd.preparing = none → p.str.handoff = [] → lostItems s n = [] → o ≠ me → (∃ m ∈ p.vd.members, m.present = true ∧ m.modId = o) → ∃ t,
      exec (.handoffTimeout vdid stream [(e, o, j)]) s = .next t ∧ (partOf t n).vd.edition = (p.vd.edition + 1) % 2 ^ 32 ∧
      tabGet (0, 0) (partOf t n).str.tokens stream = (e, o) ∧ t.mem = s.mem

/-- R295, R297, R300–R307, R315, R316: a training ends UP, DEGRADED or REFUSED with its reason; a frame slot carries what is to be replayed, a DATA flit or
IDLE; an authentic next flit enters its buffer, one whose tag fails does not; a NAK replays; keys roll; the spare lane takes over. -/
def Obligations.Links : Prop :=
  ∀ (s : State) (k : Nat), k ≤ 23 →
    let l := linkOf s k
    let others (t : State) : Prop := ∀ j, j ≠ k → linkOf t j = linkOf s j
    (∀ r : TrainResult, l.state = 1 →
      let bad := l.bad ||| r.badLanes.toNat
      let rev := Nat.min 3 r.peerRev
      (trainReason s bad r = 0 → ∃ t, exec (.linkTrain k r) s = .next t ∧ others t ∧
        (let m := linkOf t k
         m.state = (if 16 ≤ (goodLanes rev bad).length then 2 else 3) ∧ m.width = (if 16 ≤ (goodLanes rev bad).length then 16 else 8) ∧ m.rev = rev ∧ m.reason = 0 ∧
         m.keyed = true ∧ m.oldKey = false ∧ m.credits = [(0, 16), (1, 384), (2, 384), (3, 768)] ∧ m.lastRx = 0 ∧ m.nextTx = 1 ∧ m.replay = [] ∧ m.rtt = medianOf r.rtts ∧
         m.spareOk = decide ((goodLanes rev bad).length = 17))) ∧
      (trainReason s bad r ≠ 0 → ∃ t, exec (.linkTrain k r) s = .next t ∧ others t ∧ (linkOf t k).state = (if trainReason s bad r = 9 then 0 else 4) ∧
        (linkOf t k).reason = trainReason s bad r ∧ (linkOf t k).keyed = false ∧ (linkOf t k).width = l.width)) ∧
    (l.disable = false → ∃ t, exec (.retrain k) s = .next t ∧ (linkOf t k).state = 1 ∧ (linkOf t k).retrain = true ∧ (linkOf t k).reason = l.reason ∧ others t ∧ t.mem = s.mem) ∧
    (linkUp l = true → l.keyed = true → l.txFrames / 2 ^ 31 = l.txEpoch →
      (∀ (f : Flit) (fs : List Flit), l.resend = f :: fs → ∃ t, exec (.frameSend k) s = .next t ∧ t = { s with links := t.links } ∧ others t ∧
        (linkOf t k).wire = l.wire ++ [wordNow l f] ∧ (linkOf t k).resend = fs ∧ (linkOf t k).txFrames = l.txFrames + 1 ∧ (linkOf t k).nextTx = l.nextTx) ∧
      (l.resend = [] → l.lanes = [] → (512 ≤ l.replay.length ∨ pickVc s k = none) → ∃ t, exec (.frameSend k) s = .next t ∧ t = { s with links := t.links } ∧ others t ∧
        (linkOf t k).wire = l.wire ++ [wordNow l idleFlit] ∧ (linkOf t k).nextTx = l.nextTx ∧ (linkOf t k).replay = l.replay) ∧
      (∀ (vc : Nat) (p : Packet), l.resend = [] → l.lanes = [] → l.replay.length < 512 → pickVc s k = some vc → tabGet [] l.egress vc = [p] → tabGet 0 l.cut vc = 0 →
        readyFor s k vc = [] → (packetBytes p).length ≤ 240 → ∃ t, exec (.frameSend k) s = .next t ∧ t = { s with links := t.links } ∧ others t ∧ ∃ f : Flit,
        (linkOf t k).wire = l.wire ++ [f] ∧ (linkOf t k).replay = l.replay ++ [f] ∧ f.ft = 1 ∧ f.vc = vc ∧ f.lseq = l.nextTx ∧ f.ack = l.lastRx ∧ f.firstHdr = 0 ∧
        f.payload = packetBytes p ++ List.replicate (240 - (packetBytes p).length) 0#8 ∧ (linkOf t k).nextTx = (l.nextTx + 1) % 4096 ∧
        tabGet [] (linkOf t k).egress vc = [] ∧ tabGet 0 (linkOf t k).credits vc = tabGet 0 l.credits vc - 1 ∧ (linkOf t k).flying = l.flying ++ [(l.nextTx, p)])) ∧
    (∀ f : Flit, linkUp l = true → l.keyed = true →
      (f.ft = 1 → f.vc ≤ 3 → f.lseq = (l.lastRx + 1) % 4096 → keyUse l f.keysel = .current → tabGet 0 l.occ f.vc < vcBuffer f.vc → tabGet [] l.rxbuf f.vc ≠ [] → ∃ t,
        exec (.frameReceive k f [] true) s = .next t ∧ t = { s with links := t.links } ∧ others t ∧ (linkOf t k).lastRx = f.lseq ∧
        tabGet [] (linkOf t k).rxbuf f.vc = tabGet [] l.rxbuf f.vc ++ f.payload ∧ tabGet 0 (linkOf t k).occ f.vc = tabGet 0 l.occ f.vc + 1 ∧
        (linkOf t k).replay = l.replay.filter (fun x => seqAfter x.lseq f.ack)) ∧
      ∃ t, exec (.frameReceive k f [] false) s = .next t ∧ (linkOf t k).tagfail = satAdd 0xFFFF l.tagfail 1 ∧ (linkOf t k).rxbuf = l.rxbuf ∧ (linkOf t k).lastRx = l.lastRx ∧
        t.sec.a1 = satAdd 0xFFFFFFFF s.sec.a1 1 ∧ others t) ∧
    (∀ ack : Nat, l.nakFrom = some ack → linkUp l = true → ∃ t, exec (.nakReplay k ack) s = .next t ∧ t = { s with links := t.links } ∧ others t ∧
      linkOf t k = { l with nakFrom := none, resend := l.replay.filter (fun f => seqAfter f.lseq ack), replays := satAdd 0xFFFFFFFF l.replays 1 }) ∧
    (l.txEpoch < l.txFrames / 2 ^ 31 → linkUp l = true → ∃ t, exec (.keyEpochRoll k) s = .next t ∧ t = { s with links := t.links } ∧ others t ∧
      linkOf t k = { l with txEpoch := l.txEpoch + 1 }) ∧
    (l.oldKey = true → 4096 ≤ l.rxSince → ∃ t, exec (.oldKeyErase k) s = .next t ∧ t = { s with links := t.links } ∧ others t ∧ linkOf t k = { l with oldKey := false }) ∧
    (l.state = 2 → l.spareOk = true → ∃ t, exec (.laneRecalibrate k) s = .next t ∧ t = { s with links := t.links } ∧ others t ∧
      (linkOf t k).laneMap = l.laneMap.set l.recal l.spareLane ∧ (linkOf t k).spareLane = l.laneMap.getD l.recal 17 ∧ (linkOf t k).recal = (l.recal + 1) % 16 ∧
      (linkOf t k).swaps = satAdd 0xFFFFFFFF l.swaps 1 ∧ (linkOf t k).spareOk = true) ∧
    ∀ lane j : Nat, lane ≤ 16 → linkUp l = true → bitOf l.bad lane = false → badCount l.rev (l.bad + 2 ^ lane) ≤ 8 →
      (l.spareOk = true → l.laneMap.idxOf? lane = some j → ∃ t, exec (.laneFail k lane) s = .next t ∧ t = { s with links := t.links } ∧ others t ∧
        (linkOf t k).laneMap = l.laneMap.set j l.spareLane ∧ (linkOf t k).bad = l.bad + 2 ^ lane ∧ (linkOf t k).spareOk = false ∧ (linkOf t k).state = l.state) ∧
      (l.spareOk = false → l.disable = false → ∃ t, exec (.laneFail k lane) s = .next t ∧ others t ∧ (linkOf t k).state = 1 ∧ (linkOf t k).bad = l.bad + 2 ^ lane)

/-- R310–R314, R318, R457: ROUTE writes the tables; a link's change and an ID are flooded over every link that carries traffic and is not in self-test; a claim without a conflict makes the ID valid; the lowest
live ID is root; the first ABORT of a serial stops the device here. -/
def Obligations.FabricRoles : Prop :=
  ∀ (s : State),
    let flooded (t : State) (kind : Nat) : Prop := ∀ j, linkUp (linkOf t j) = true →
      if linkInTest t j then (linkOf t j).egress = (linkOf s j).egress else ∃ p : Packet, p.kind = kind ∧ (tabGet [] (linkOf t j).egress 0).getLast? = some p
    (s.glb.idValid = false → ∃ t, exec (.route [] []) s = .next t ∧ t = { s with fab := { s.fab with rtGroup := [], rtMember := [] } }) ∧
    (∀ (g m : Nat) (a b : W32), s.glb.idValid = true → g < 512 → m < 512 → m ≠ s.glb.moduleId % 512 → ∃ t, exec (.route [(g, a)] [(m, b)]) s = .next t ∧
      tabGet 0 t.fab.rtGroup g = a ∧ tabGet 0 t.fab.rtMember m = b ∧ tabGet 0 t.fab.rtMember (s.glb.moduleId % 512) = 0x80000000#32 ∧
      (∀ j, j ≠ g → tabGet 0 t.fab.rtGroup j = tabGet 0 s.fab.rtGroup j) ∧ t = { s with fab := t.fab }) ∧
    (∀ k : Nat, k ≤ 23 → (linkOf s k).state ≠ 0 → (linkOf s k).state ≠ 5 → ∃ t, exec (.linkStateChange k 0) s = .next t ∧ (linkOf t k).state = 0 ∧ (linkOf t k).width = (linkOf s k).width ∧
      (∀ j, j ≠ k → (linkOf t j).state = (linkOf s j).state) ∧ flooded t 0x0B) ∧
    (∀ v : W32, s.fab.claiming = false → s.glb.idValid = false → bits v.toNat 19 0 < 2 ^ 18 → ∃ t, exec (.lnkModidWrite v) s = .next t ∧
      t.fab = { s.fab with modidReg := bits v.toNat 19 0, claiming := true, conflict := false } ∧ flooded t 0x0C ∧ t = { s with fab := t.fab, links := t.links }) ∧
    (∀ k id : Nat, k ≤ 23 →
      (s.glb.idValid = true → s.glb.moduleId = id → ∃ t, exec (.idClaim k id) s = .next t ∧ t.glb = s.glb ∧ t.fab.event = s.fab.event ||| 2 ∧ flooded t 0x0C) ∧
      (s.glb.idValid = false → s.fab.claiming = true → s.fab.modidReg = id → ∃ t, exec (.idClaim k id) s = .next t ∧ t.fab.conflict = true ∧ t.glb = s.glb ∧ flooded t 0x0C) ∧
      (s.glb.idValid = false → s.fab.claiming = false → ∃ t, exec (.idClaim k id) s = .next t ∧ t = { s with links := t.links })) ∧
    (s.fab.claiming = true → (s.fab.conflict = true → ∃ t, exec .idClaimTimeout s = .next t ∧ t = { s with fab := { s.fab with claiming := false } }) ∧
      (s.fab.conflict = false → livePartsOf s = [] → ∃ t, exec .idClaimTimeout s = .next t ∧ t.glb = { s.glb with idValid := true, moduleId := s.fab.modidReg } ∧
        t.fab.claiming = false ∧ tabGet 0 t.fab.rtMember (s.fab.modidReg % 512) = 0x80000000#32 ∧ flooded t 0x0B)) ∧
    (∀ id : Nat, (isRoot s = true → id < s.glb.moduleId → ∃ t, exec (.rootHeartbeat id) s = .next t ∧ t.fab.rootId = id ∧ t.fab.collected = false ∧ flooded t 0x09) ∧
      (isRoot s = true → s.glb.moduleId < id → ∃ t, exec (.rootHeartbeat id) s = .next t ∧ t = { s with fab := { s.fab with collected := false } }) ∧
      (s.fab.rootValid = false → s.glb.idValid = true → ∃ t, exec (.rootHeartbeat id) s = .next t ∧ t.fab.rootValid = true ∧ t.fab.rootId = id ∧ flooded t 0x09)) ∧
    (∀ alive : List Nat, isRoot s = false →
      (s.glb.idValid = true → (∀ a ∈ alive, s.glb.moduleId ≤ a) → ∃ t, exec (.heartbeatTimeout alive) s = .next t ∧
        t = { s with fab := { s.fab with rootValid := true, rootId := s.glb.moduleId, collected := false, vdids := [], out := t.fab.out } } ∧
        ∃ ps : List Packet, t.fab.out = s.fab.out ++ ps ∧ ps.map (·.dst) = alive.filter (· != s.glb.moduleId) ∧
          ∀ p ∈ ps, p.kind = 0x09 ∧ p.maddr = true ∧ opCode p = atlCollect ∧ p.payload = []) ∧
      ((∃ a ∈ alive, a < s.glb.moduleId) → ∃ t, exec (.heartbeatTimeout alive) s = .next t ∧ t = { s with fab := { s.fab with rootValid := false } })) ∧
    (∀ vdids : List Nat, isRoot s = true → s.fab.collected = false → s.fab.asks = [] → s.atl.creating = none → ∃ t, exec (.rootVdidCollect vdids) s = .next t ∧
      t = { s with fab := { s.fab with vdids := t.fab.vdids, doubled := repeated vdids, collected := true } } ∧
      (∀ v ∈ vdids, v ∈ t.fab.vdids) ∧ ∀ n ∈ livePartsOf s, (partOf s n).vd.vdid ∈ t.fab.vdids) ∧
    ∀ vdid cause status origin count n : Nat,
      (s.fab.serials.contains (origin, count) = true → ∃ t, exec (.abort vdid cause status origin count) s = .next t ∧ t = s) ∧
      (s.fab.serials.contains (origin, count) = false → partOfVdid s vdid = some n →
        (cause ≠ 2 → (partOf s n).ctx.state = .active → ∃ t, exec (.abort vdid cause status origin count) s = .next t ∧ (partOf t n).ctx.cause = status ∧
          (partOf t n).ctx.state = (if cause = 3 then .recovering else .lost) ∧ t.fab.out = s.fab.out ∧ (origin, count) ∈ t.fab.serials) ∧
        (cause = 2 → (partOf s n).ctx.state ≠ .none → ∃ t, exec (.abort vdid cause status origin count) s = .next t ∧ (partOf t n).ctx.state = .destroying ∧
          ∀ d, (coreOf s d).part = n → (coreOf s d).mode ≠ .idle → (coreOf t d).mode = .idle))

/-- R266, R308, R310, R312: a packet for another module goes on with one hop less, or back when none is left; one of an unknown virtual device or a
past edition goes back, one of the next edition waits; a returned packet is sent again; without a route packets go back, and their destination fails. -/
def Obligations.FabricPackets : Prop :=
  ∀ (s : State) (k : Nat) (p : Packet),
    let got (t : State) (q : Packet) : Prop := t.fab.out = s.fab.out ++ [q] ∧ t.mem = s.mem ∧ t.cores = s.cores
    (k ≤ 23 → linkUp (linkOf s k) = true → s.glb.idValid = true → isFlood p = false → p.pver = 3 →
      (p.dst ≠ s.glb.moduleId → (2 ≤ p.ttl → ∃ t, exec (.fabricPacketReceive k p) s = .next t ∧ got t { p with ttl := p.ttl - 1 } ∧ t.parts = s.parts) ∧
        (p.ttl ≤ 1 → ∃ t, exec (.fabricPacketReceive k p) s = .next t ∧ got t { p with ret := 4, dst := p.src, src := p.dst, ttl := 64 } ∧ t.parts = s.parts)) ∧
      (p.dst = s.glb.moduleId → p.ret = 0 → p.maddr = false →
        (partOfVdid s p.vdid = none → ∃ t, exec (.fabricPacketReceive k p) s = .next t ∧ got t (returned p 1 0) ∧ t.parts = s.parts) ∧
        ∀ n : Nat, partOfVdid s p.vdid = some n →
          (behindBounce s n p = true → ∃ t, exec (.fabricPacketReceive k p) s = .next t ∧ got t (returned p 1 (partOf s n).vd.edition)) ∧
          (behindBounce s n p = false → p.edition = ((partOf s n).vd.edition + 1) % 2 ^ 32 → p.edition ≠ (partOf s n).vd.edition → (p.edition + 1) % 2 ^ 32 ≠ (partOf s n).vd.edition → ∃ t,
            exec (.fabricPacketReceive k p) s = .next t ∧ (partOf t n).vd.heldPkts = (partOf s n).vd.heldPkts.erase p ++ [p] ∧ t.fab.out = s.fab.out ∧ t.mem = s.mem) ∧
          (behindBounce s n p = false → p.edition ≠ (partOf s n).vd.edition → p.edition ≠ ((partOf s n).vd.edition + 1) % 2 ^ 32 → (partOf s n).vd.overlap = false → ∃ t,
            exec (.fabricPacketReceive k p) s = .next t ∧ got t (returned p 1 (partOf s n).vd.edition)))) ∧
    (p.dst = s.glb.moduleId → s.glb.idValid = true → p.ret ≠ 0 → p.ret ≠ 1 →
      ∃ t, exec (.packetReturn p) s = .next t ∧ got t { p with ret := 0, dst := p.src, src := s.glb.moduleId, ttl := 64 } ∧ t.parts = s.parts ∧
        (p.ret = 4 → t.fab.event = s.fab.event ||| 4)) ∧
    (∀ (n : Nat) (d ms : Nat), d ≠ s.glb.moduleId →
      let away := s.fab.out.filter (fun q => (q.dst == d && unroutable s q) && (q.src != s.glb.moduleId && q.ret == 0))
      (2 ≤ ms → ms < 10 → ∃ t, exec (.routeFailTimeout d ms) s = .next t ∧
        t = { s with fab := { s.fab with out := s.fab.out.filter (fun q => !away.contains q) ++ away.map (fun q => returned q 2 q.edition) } }) ∧
      (10 ≤ ms → livePartsOf s = [n] → ∃ t, exec (.routeFailTimeout d ms) s = .next t ∧
        (partOf t n).vd.members = (partOf s n).vd.members.map (fun x => if x.modId = d then { x with present := false } else x)))

/-- R322, R323, R325, R326, R328–R331: a flush read takes the posted writes in front of it out of the log; a VF is switched to its other port on request,
and on a failure when that port is usable, else it waits and after 10 s its context is lost; a link that is up takes it back; resets of a port or a
function clear its enables; mailbox requests and replies are posted. -/
def Obligations.HostPorts : Prop :=
  ∀ (s : State) (port n : Nat), port ≤ 1 → n < 64 → (partOf s n).vd.used = true →
    let v := (partOf s n).vf
    let m := tabGet {} s.glb.mbx (64 * port + n)
    let off (t : State) : Bool := if port = 0 then (partOf t n).vf.offA else (partOf t n).vf.offB
    let on : Bool := if port = 0 then v.exposedA else v.exposedB
    ((portOf s port).link = 2 → (portOf s port).flush = none → ∃ t, exec (.flushRead port) s = .next t ∧ t = { s with ports := t.ports } ∧
      portOf t port = { portOf s port with flush := some (portOf s port).log.length } ∧ portOf t (1 - port) = portOf s (1 - port)) ∧
    (∀ k, (portOf s port).flush = some k → (portOf s port).waiting = [] → ∃ t, exec (.flushReadComplete port) s = .next t ∧ t = { s with ports := t.ports } ∧
      portOf t port = { portOf s port with log := (portOf s port).log.drop k, flush := none } ∧ portOf t (1 - port) = portOf s (1 - port)) ∧
    (v.switchReq = true →
      (portUsable s n (1 - b2n v.active) = true → ∃ t, exec (.switch n) s = .next t ∧ t.mem = s.mem ∧
        (partOf t n).vf = { v with active := !v.active, noPort := false, switchReq := false } ∧ ∀ k, k ≠ n → partOf t k = partOf s k) ∧
      (portUsable s n (1 - b2n v.active) = false → ∃ t, exec (.switch n) s = .next t ∧ onlyPart s t n ∧
        partOf t n = { partOf s n with vf := { v with switchReq := false, refused := true } })) ∧
    ((portOf s port).link = 2 → livePartsOf s = [n] → b2n v.active = port → (v.exposedA || v.exposedB) = true →
      (portUsable s n (1 - port) = true → ∃ t, exec (.portFailure port) s = .next t ∧ (portOf t port).link = 0 ∧
        (portOf t port).failovers = satAdd 0xFFFF (portOf s port).failovers 1 ∧
        (partOf t n).vf = { v with active := !v.active, noPort := false, switchReq := false, failedOver := true }) ∧
      (portUsable s n (1 - port) = false → ∃ t, exec (.portFailure port) s = .next t ∧ (portOf t port).link = 0 ∧ (partOf t n).vf = { v with noPort := true })) ∧
    (v.noPort = true ∨ (portUsable s n 0 = false ∧ portUsable s n 1 = false) → (partOf s n).ctx.state = .active → ∃ t, exec (.noPortTimeout n) s = .next t ∧ (partOf t n).ctx.state = .lost ∧ (partOf t n).ctx.cause = 0x12) ∧
    (∀ (gen width : Nat) (ats : List (Nat × Nat)), 4 ≤ gen → gen ≤ 7 → width = 16 ∨ width = 8 ∨ width = 4 → ∃ t,
      exec (.portLinkUp port gen width ats) s = .next t ∧ (portOf t port).link = 2 ∧ (portOf t port).gen = gen ∧ (portOf t port).width = width ∧
      (portOf t port).flit = decide (gen ≥ 6) ∧ (portOf t port).perst = false ∧ (portOf t port).enabled = true ∧ off t = false ∧ (portOf t port).ats = atsTable ats ∧
      (livePartsOf s = [n] → b2n v.active = port → on = true → (partOf t n).vf.noPort = false)) ∧
    (on = true →
      (∃ t, exec (.flr port (n + 1)) s = .next t ∧ off t = true ∧ (tabGet {} t.glb.mbx (64 * port + n)).send = false) ∧
      (∃ t, exec (.perst port) s = .next t ∧ (portOf t port).link = 0 ∧ (portOf t port).perst = true ∧ off t = true) ∧
      ((portOf s port).link ≠ 0 → ∃ t, exec (.hotReset port) s = .next t ∧ (portOf t port).link = 1 ∧ (portOf t port).perst = (portOf s port).perst ∧ off t = true) ∧
      (∀ len, len ≤ 256 → m.send = false → ∃ t, exec (.vfMbxSend port n len) s = .next t ∧ t = { s with glb := t.glb, msix := s.msix ++ [(0, 64, 2047)] } ∧
        tabGet {} t.glb.mbx (64 * port + n) = { m with send := true, len } ∧ (tabGet 0 t.glb.pend port).getLsbD n = true)) ∧
    (m.send = true → ∃ t, exec (.glbMbxDone port n) s = .next t ∧ t = { s with glb := t.glb, msix := s.msix ++ [(port, n, 127)] } ∧
      tabGet {} t.glb.mbx (64 * port + n) = { m with send := false, reply := true })

/-- R334, R335, R343, R347: an interface is locked, which makes its virtual device secure on every member first, started and stopped in that order, and an order that does not
apply is answered without effect; a report is given; the peer window aborts what lies in none of its places. -/
def Obligations.Interfaces : Prop :=
  ∀ (s : State) (n : Nat),
    (tdiThere s n = true →
      let tdi := (partOf s n).vf.tdi
      let refused (i : Instr) : Prop := ∃ t a, exec i s = .next t ∧ t = { s with answers := s.answers ++ [a] } ∧ a.ok = false
      let said (t : State) (req : Nat) : Prop := t.answers = s.answers ++ [⟨req, true, [BitVec.ofNat 64 n]⟩]
      (tdi = .unlocked → s.sec.quarantine = false → (partOf s n).vd.locking = none →
        ((partOf s n).vd.secure = true ∨ otherMembers s n = [] → ∃ t, exec (.lockInterface n) s = .next t ∧ (partOf t n).vf = { (partOf s n).vf with tdi := .locked } ∧
          (partOf t n).vd.secure = true ∧ said t 32 ∧ (∀ m, m ≠ n → partOf t m = partOf s m)) ∧
        ((partOf s n).vd.secure = false → otherMembers s n ≠ [] → ∃ t, exec (.lockInterface n) s = .next t ∧ (partOf t n).vf = (partOf s n).vf ∧ t.answers = s.answers ∧
          (partOf t n).vd = { (partOf s n).vd with secure := true, locking := some (otherMembers s n) } ∧
          t.fab.out.length = s.fab.out.length + (otherMembers s n).length ∧ ∀ m, m ≠ n → partOf t m = partOf s m)) ∧
      (tdi = .unlocked → s.sec.quarantine = false → (partOf s n).vd.locking ≠ none → exec (.lockInterface n) s = .next s) ∧
      (tdi ≠ .unlocked ∨ s.sec.quarantine = true → refused (.lockInterface n)) ∧
      (tdi = .locked → ∃ t, exec (.startInterface n) s = .next t ∧ onlyPart { s with answers := t.answers } t n ∧
        partOf t n = { partOf s n with vf := { (partOf s n).vf with tdi := .run } } ∧ said t 33) ∧
      (tdi ≠ .locked → refused (.startInterface n)) ∧
      (tdi ≠ .error → ∃ t, exec (.stopInterface n) s = .next t ∧ onlyPart { s with answers := t.answers } t n ∧
        partOf t n = { partOf s n with vf := { (partOf s n).vf with tdi := .unlocked }, vd := { (partOf s n).vd with locking := none } } ∧ said t 34) ∧
      ∃ t a, exec (.getDeviceInterfaceReport n) s = .next t ∧ t = { s with answers := s.answers ++ [a] } ∧ a.ok = true ∧ a.words.length = 14) ∧
    ∀ (off : Nat) (data : List Byte),
      ((∀ pa ∈ storeReads s, off < Config.storeBuffer pa ∨ Config.storeBuffer pa + 4096 ≤ off) → ∃ t, exec (.peerWindowAccess off true data) s = .next t ∧
        t = { s with reads := s.reads ++ [.completerAbort] }) ∧
      ((∃ pa ∈ storeReads s, Config.storeBuffer pa ≤ off ∧ off < Config.storeBuffer pa + 4096) → ∃ t, exec (.peerWindowAccess off true data) s = .next t ∧ t = s) ∧
      ((∀ it ∈ submitted s, off < Config.journalPlace it.vdid it.jseq ∨ Config.journalPlace it.vdid it.jseq + itemSize it ≤ off) → ∃ t,
        exec (.peerWindowAccess off false data) s = .next t ∧ t = { s with reads := s.reads ++ [.completerAbort] })

/-- R337–R341, R365: FREEZE makes an ACTIVE context FROZEN and ends when its cores rest; SAVE puts its image in place for a verified target; RESTORE
builds a FROZEN context from an image that fits and is authentic; THAW makes it ACTIVE, moving the VDID after a RESTORE; DISCARD ends a saved one. -/
def Obligations.Migration : Prop :=
  ∀ (s : State) (n : Nat), s.glb.migGo = true → s.glb.migPart = n →
    let p := partOf s n
    let ended (t : State) (status : Nat) : Prop := t.glb.migGo = false ∧ t.glb.migStatus = status
    let stays (i : Instr) (status : Nat) : Prop := ∃ t, exec i s = .next t ∧ t = { s with glb := t.glb } ∧ ended t status
    (s.glb.migOp = 1 → s.glb.migBusy = false → freezeWaits s n = false → p.vf.tdi = .unlocked →
      (movable s n = true → p.ctx.state = .active → p.str.steps = [] → ∃ t, exec (.freeze n) s = .next t ∧ (partOf t n).ctx = { p.ctx with state := .frozen } ∧ t.mem = s.mem ∧
        ((∀ c, (coreOf s c).mode = .idle) → ended t 0) ∧
        ∀ c, c / 16 ∈ computeSlices s n → (coreOf s c).mode = .running → (coreOf t c).preemptReq = true) ∧
      (movable s n = false ∨ p.ctx.state ≠ .active → stays (.freeze n) 0x14)) ∧
    (s.glb.migOp = 2 →
      (movable s n = true → frozen s n = true → p.vf.migTarget = true → (portUsable s n 0 = true ∨ portUsable s n 1 = true) → ∃ t, exec (.save n) s = .next t ∧ ended t 0 ∧
        (partOf t n).vf = { p.vf with saved := true } ∧ (s.glb.migImage / 4096 * 4096, imageOf s n) ∈ t.glb.images ∧ t.mem = s.mem ∧ (partOf t n).ctx = p.ctx) ∧
      (movable s n = false ∨ frozen s n = false ∨ p.vf.migTarget = false → stays (.save n) 0x14)) ∧
    (∀ (im : MigImage) (authentic : Bool), s.glb.migOp = 3 →
      (movable s n = false ∨ p.ctx.state ≠ .none → stays (.restoreImage n im authentic) 0x14) ∧
      (movable s n = true → p.ctx.state = .none →
        (im.version ≠ 1 → stays (.restoreImage n im authentic) 0x15) ∧
        (im.version = 1 → authentic = false → ∃ t, exec (.restoreImage n im authentic) s = .next t ∧ ended t 0x15 ∧ t.sec.a1 = satAdd 0xFFFFFFFF s.sec.a1 1 ∧ t.parts = s.parts) ∧
        (im.version = 1 → authentic = true → restoreFits s n im = false → stays (.restoreImage n im authentic) 0x14) ∧
        (im.version = 1 → authentic = true → restoreFits s n im = true → ∃ t, exec (.restoreImage n im authentic) s = .next t ∧ ended t 0 ∧ (partOf t n).ctx = { im.part.ctx with state := .frozen } ∧
          (partOf t n).str.streams = im.part.str.streams ∧ (partOf t n).vf.restored = true ∧ (partOf t n).vf.srcVdid = im.srcVdid ∧ (partOf t n).vd.vdid = p.vd.vdid ∧
          (partOf t n).keys.newest = im.newest))) ∧
    (s.glb.migOp = 4 → movable s n = true → frozen s n = true → p.vf.moved = false →
      (p.vf.restored = false → ∃ t, exec (.thaw n) s = .next t ∧ ended t 0 ∧ onlyPart { s with glb := t.glb } t n ∧
        partOf t n = { p with ctx := { p.ctx with state := .active }, vf := { p.vf with saved := false, restored := false } }) ∧
      (p.vf.restored = true → s.fab.rootValid = true → ∃ t, exec (.thaw n) s = .next t ∧ ended t 0 ∧ (partOf t n).vd.vdid = p.vf.srcVdid ∧
        (partOf t n).ctx.state = .active ∧ (partOf t n).vf.restored = false ∧ (partOf t n).vd.edition = (p.vd.edition + 1) % 2 ^ 32)) ∧
    (s.glb.migOp = 4 → (movable s n = false ∨ frozen s n = false ∨ p.vf.moved = true) → stays (.thaw n) 0x14) ∧
    (s.glb.migOp = 5 → s.glb.migBusy = false →
      (movable s n = true → frozen s n = true → p.vf.saved = true → queuesGone p = true → ∃ t, exec (.discard n) s = .next t ∧ ended t 0 ∧ (partOf t n).ctx = {} ∧
        (partOf t n).graphs = [] ∧ (partOf t n).str.streams = []) ∧
      (movable s n = false ∨ frozen s n = false ∨ p.vf.saved = false → stays (.discard n) 0x14))

/-- R356, R360, R361, R364–R366: KEY_ROTATE brings the next generation, at once where no other module holds keys; the end of the sweep erases the older
one; MIG_TARGET, COMMIT_SVN and KEY_STATUS answer through the mailbox; delivered generations enter the bank. -/
def Obligations.KeyServices : Prop :=
  ∀ (s : State) (n : Nat),
    let p := partOf s n
    let ended (t : State) (status : Nat) : Prop := t.sec.mbxGo = false ∧ t.sec.mbxStatus = status
    let stays (i : Instr) (status : Nat) : Prop := ∃ t, exec i s = .next t ∧ t = { s with sec := t.sec } ∧ ended t status
    (s.sec.mbxGo = true → s.sec.mbxOp = 1 →
      (partOfVdid s (mbxArg s 0 % 2 ^ 24) = none → stays .keyRotate 0x14) ∧
      (partOfVdid s (mbxArg s 0 % 2 ^ 24) = some n → p.keys.rotating = none →
        (p.ctx.state ≠ .active ∨ p.keys.older ≠ 0 → stays .keyRotate 0x14) ∧
        (p.ctx.state = .active → p.keys.older = 0 →
          (keyHolders s n = [] → ∃ t, exec .keyRotate s = .next t ∧ ended t 0 ∧ mbxArg t 0 = nextGen p.keys.newest ∧ (∀ m, m ≠ n → partOf t m = partOf s m) ∧
            (partOf t n).keys.newest = nextGen p.keys.newest ∧ (partOf t n).keys.older = p.keys.newest ∧ (partOf t n).keys.sweeping = true) ∧
          (keyHolders s n ≠ [] → ∃ t, exec .keyRotate s = .next t ∧ t.sec = s.sec ∧ (partOf t n).keys = { p.keys with rotating := some (nextGen p.keys.newest, keyHolders s n) } ∧
            t.fab.out.length = s.fab.out.length + (keyHolders s n).length)))) ∧
    (p.keys.sweeping = true → frozen s n = false → p.keys.sweepLeft = [] → p.keys.rotator = none → p.keys.older ≠ 0 → ∃ t, exec (.resealSweepEnd n) s = .next t ∧
      (partOf t n).keys = { p.keys with sweeping := false, older := 0 } ∧ t.mem = s.mem) ∧
    (∀ chainOk killed opn : Bool, s.sec.mbxGo = true → s.sec.mbxOp = 2 → mbxArg s 0 % 64 = n → p.vd.used = true → bits (mbxArg s 2) 31 0 ≤ 16384 → ∃ t,
      exec (.migTarget chainOk killed opn) s = .next t ∧
      (partOf t n).vf = { p.vf with migTarget := chainOk && !killed && !(opn && s.nv.lifecycle == 2) } ∧
      ended t (if (chainOk && !killed && !(opn && s.nv.lifecycle == 2)) = true then 0 else 0x14)) ∧
    (s.sec.mbxGo = true → s.sec.mbxOp = 3 →
      (s.sec.fallback = false → s.sec.svnRunning ≤ 64 → ∃ t, exec .commitSvn s = .next t ∧ ended t 0 ∧ t.nv = { s.nv with svnFused := Nat.max s.nv.svnFused s.sec.svnRunning } ∧ t.parts = s.parts) ∧
      (s.sec.fallback = true → stays .commitSvn 0x14)) ∧
    (s.sec.mbxGo = true → s.sec.mbxOp = 4 → partOfVdid s (mbxArg s 0 % 2 ^ 24) = some n → p.keys.newest ≤ 3 → p.keys.older ≤ 3 → ∃ t, exec .keyStatus s = .next t ∧ ended t 0 ∧
      t = { s with sec := t.sec } ∧ mbxArg t 1 = p.keys.newest + 4 * p.keys.older + 16 * b2n p.keys.sweeping) ∧
    ∀ vdid gen older source : Nat, gen ≤ 3 → older ≤ 3 → source ≠ s.glb.moduleId → s.sec.zeroised = false →
      (partOfVdid s vdid = some n → ∃ t, exec (.tenantKeyDelivery vdid gen older source) s = .next t ∧ onlyPart s t n ∧
        partOf t n = { p with keys := { p.keys with newest := gen, older := older } }) ∧
      (partOfVdid s vdid = none → gen ≠ 0 → ∃ t, exec (.tenantKeyDelivery vdid gen older source) s = .next t ∧ t = { s with sec := t.sec } ∧ (vdid, gen, older) ∈ t.sec.partnerKeys)

/-- R358, R359: a session goes through version, capabilities, algorithms, key exchange and finish in that order; requests that its state allows are
answered and others are refused; keys update and the session ends. -/
def Obligations.SpdmSessions : Prop :=
  ∀ (s : State) (i : Nat), spdmUp s i = true →
    let x := sessionOf s i
    let moves (c : Instr) (req : Nat) (y : Session) : Prop := ∃ t a, exec c s = .next t ∧ sessionOf t i = y ∧ (∀ j, j ≠ i → sessionOf t j = sessionOf s j) ∧
      t = { s with sec := { s.sec with sessions := t.sec.sessions }, draws := t.draws, answers := s.answers ++ [a] } ∧ a.req = req ∧ a.ok = true
    let refused (c : Instr) (req : Nat) : Prop := ∃ t, exec c s = .next t ∧ t = { s with answers := s.answers ++ [⟨req, false, []⟩] }
    moves (.getVersion i) 1 { state := 1 } ∧
    (x.state = 1 → moves (.getCapabilities i) 2 { x with state := 2 }) ∧ (x.state ≠ 1 → refused (.getCapabilities i) 2) ∧
    (∀ l : List Nat, x.state = 2 → (∀ a, a < 4 → a ∈ l) → moves (.negotiateAlgorithms i l) 3 { x with state := 3 }) ∧
    (∀ l : List Nat, (x.state ≠ 2 ∨ ∃ a, a < 4 ∧ a ∉ l) → refused (.negotiateAlgorithms i l) 3) ∧
    (3 ≤ x.state → moves (.getDigests i) 4 x ∧ moves (.getCertificate i 0) 5 x) ∧ (x.state < 3 → refused (.getDigests i) 4 ∧ refused (.getCertificate i 0) 5) ∧
    (∀ nonce : W64, 3 ≤ x.state → s.sec.aliasHeld = true → moves (.challenge i 0 nonce) 6 x) ∧ (∀ (slot : Nat) (nonce : W64), slot ≠ 0 → refused (.challenge i slot nonce) 6) ∧
    (∀ k : Nat, 3 ≤ x.state → s.sec.aliasHeld = true → 1 ≤ k → k ≤ 8 → ∃ t, exec (.getMeasurements i k) s = .next t ∧ t.answers = s.answers ++ [⟨7, true, [measured s k]⟩] ∧
      t.nv = s.nv ∧ t.parts = s.parts) ∧
    (x.state = 3 → s.sec.aliasHeld = true → moves (.keyExchange i) 8 { x with state := 4 }) ∧ (x.state ≠ 3 → refused (.keyExchange i) 8) ∧
    (x.state = 4 → moves (.finish i true) 9 { state := 5, keyGen := 1 } ∧
      ∃ t, exec (.finish i false) s = .next t ∧ sessionOf t i = { x with state := 3 } ∧ t.answers = s.answers ++ [⟨9, false, []⟩]) ∧
    (x.state = 5 → moves (.heartbeat i) 10 x ∧ moves (.keyUpdate i) 11 { x with keyGen := x.keyGen + 1 } ∧ moves (.endSession i) 12 { state := 3 } ∧
      ∀ pay : List Byte, i < 8 → moves (.vendorDefinedRequest i 1 pay) 13 x) ∧
    (x.state ≠ 5 → refused (.heartbeat i) 10 ∧ refused (.keyUpdate i) 11 ∧ refused (.endSession i) 12 ∧ ∀ (proto : Nat) (pay : List Byte), refused (.vendorDefinedRequest i proto pay) 13)

/-- R352, R353, R367–R369, R443: an alarm of level A1 is counted, one of A2 quarantines, one of A3 zeroises, one of A4 blows the kill fuse; a source
that standby watches is latched while conversion is off; a decommissioning kills; debug opens only where the lifecycle and the grant allow it. -/
def Obligations.Alarms : Prop :=
  ∀ (s : State),
    let isAlarm (i : Instr) (code : Nat) : Prop := i = .alarm code ∨ (i = .tamperLoopOpen ∧ code = 0x0A) ∨ (i = .tamperMeshBreach ∧ code = 0x0B) ∨
      (i = .monitorOutOfRange ∧ code = 8) ∨ (i = .faultInjectionDetect ∧ code = 9)
    (∀ (i : Instr) (code : Nat), isAlarm i code → 1 ≤ code → code ≤ 12 → s.pwr.converting = true →
      (code ≤ 6 → ∃ t, exec i s = .next t ∧ t.sec = { s.sec with lastSource := code, lastLevel := 1, a1 := satAdd 0xFFFFFFFF s.sec.a1 1 } ∧ t.parts = s.parts ∧ t.mem = s.mem) ∧
      (code = 7 ∨ code = 8 → ∃ t, exec i s = .next t ∧ t.sec.quarantine = true ∧ t.sec.alarmN = true ∧ t.sec.debug = [] ∧ t.sec.lastLevel = 2 ∧ t.nv.lifecycle = s.nv.lifecycle ∧
        t.sec.zeroised = s.sec.zeroised) ∧
      (code = 9 ∨ code = 10 → s.nv.a3Count < 3 → ∃ t, exec i s = .next t ∧ t.sec.quarantine = true ∧ t.sec.zeroised = true ∧ t.sec.aliasHeld = false ∧
        t.nv.a3Count = s.nv.a3Count + 1 ∧ t.nv.lifecycle = s.nv.lifecycle ∧ (∀ n, (partOf t n).keys = {}) ∧ t.err.failing = some 3) ∧
      (11 ≤ code ∨ ((code = 9 ∨ code = 10) ∧ 3 ≤ s.nv.a3Count) → ∃ t, exec i s = .next t ∧ t.sec.zeroised = true ∧ t.nv.lifecycle = 3)) ∧
    (∀ (i : Instr) (code : Nat), (i = .alarm code ∧ 1 ≤ code ∧ code ≤ 12) ∨ (i = .tamperLoopOpen ∧ code = 0x0A) ∨ (i = .tamperMeshBreach ∧ code = 0x0B) → s.pwr.converting = false → ∃ t,
      exec i s = .next t ∧ t = { s with sec := { s.sec with latched := t.sec.latched } } ∧ code ∈ t.sec.latched ∧ ∀ c ∈ s.sec.latched, c ∈ t.sec.latched) ∧
    ((s.nv.lifecycle = 1 ∨ s.nv.lifecycle = 2 → ∃ t, exec (.decommissionRequest true) s = .next t ∧
        t = { s with nv := { s.nv with lifecycle := 3 }, sec := { s.sec with deviceId := false, aliasHeld := false } }) ∧
      ∃ t, exec (.decommissionRequest false) s = .next t ∧ t = s) ∧
    ∀ (target : Nat) (grant : Bool),
      let may : Prop := s.nv.lifecycle = 1 ∨ (s.nv.lifecycle = 2 ∧ grant = true ∧ secureResident s = false)
      (may → debuggable target = true → s.sec.quarantine = false → ∃ t, exec (.debugAuthorisation grant target) s = .next t ∧
        t = { s with sec := { s.sec with debug := t.sec.debug } } ∧ target ∈ t.sec.debug) ∧
      (¬ may ∨ debuggable target = false ∨ s.sec.quarantine = true → ∃ t, exec (.debugAuthorisation grant target) s = .next t ∧ t.sec.debug = s.sec.debug ∧
        t.sec.a1 = satAdd 0xFFFFFFFF s.sec.a1 1 ∧ t.sec.lastSource = 5)

/-- R29, R397–R403, R408, R412, R413, R437, R438, R448: the power manager's rates stay within their bounds and fall by one step at a time; clocks move
by 100 MHz; a droop cuts issue and is restored by 4/64; low input and caps limit the module; temperatures derate stacks and shut the module down. -/
def Obligations.PowerControl : Prop :=
  ∀ (s : State) (c : Nat), c < 64 →
    let x := clusterOf s c
    let rest (t : State) : Prop := ∀ d, d ≠ c → clusterOf t d = clusterOf s d
    let floor : Nat := if drains s c then 32 else 8
    let off (t : State) : Prop := t.pwr.converting = false ∧ t.cores = [] ∧ t.mem = [] ∧ t.nv.svnFused = s.nv.svnFused ∧ t.nv.lifecycle = s.nv.lifecycle ∧ t.pending = s.pending
    (∀ w : Nat, ∃ t, exec (.activityEstimate c w) s = .next t ∧ t = { s with clusters := t.clusters } ∧ clusterOf t c = { x with actW := w } ∧ rest t) ∧
    (∀ l : List Nat, ∃ t, exec (.weightRefit l) s = .next t ∧ t = { s with pwr := { s.pwr with weights := l } }) ∧
    (∀ r pin : Nat, x.drooping = none → ∃ t, exec (.issueRateUpdate [(c, r)] pin) s = .next t ∧ t.pwr.pin = pin ∧ rest t ∧
      clusterOf t c = { x with rate := Nat.min x.limit (Nat.max (Nat.max floor (x.rate - 1)) r) }) ∧
    (let at_ (t : State) (f : Nat) : Prop := clusterOf t c =
        if (sliceOf s c).gated then { x with clkNext := some f } else { x with clkCur := f, clkNext := none, synced := x.synced && decide (f = x.clkCur) }
     ((s.pwr.junction ≥ 95 ∨ (x.rate = 8 ∧ effectiveCap s.pwr < s.pwr.pin)) → 600 < clockDue x → ∃ t, exec (.clockStep c true) s = .next t ∧ rest t ∧
        at_ t (Nat.max 600 (clockDue x - 100))) ∧
     (48 ≤ x.rate → clockDue x < x.clkTarget → ∃ t, exec (.clockStep c false) s = .next t ∧ rest t ∧ at_ t (Nat.min x.clkTarget (clockDue x + 100)))) ∧
    (∀ percent : Nat,
      (percent < 5 → ∃ t, exec (.droop c percent) s = .next t ∧ rest t ∧ clusterOf t c = { x with stretched := false }) ∧
      (5 ≤ percent → drains s c = true → ∃ t, exec (.droop c percent) s = .next t ∧ rest t ∧
        clusterOf t c = { x with drooping := some (x.drooping.getD x.rate), rate := Nat.min x.rate 32, stretched := true }) ∧
      (5 ≤ percent → drains s c = false → ∃ t, exec (.droop c percent) s = .next t ∧ rest t ∧
        clusterOf t c = { x with drooping := some (x.drooping.getD x.rate), rate := Nat.min x.rate 16, stretched := x.stretched || decide (percent ≥ 8) })) ∧
    (∀ r : Nat, x.drooping = some r → ∃ t, exec (.droopRestore c) s = .next t ∧ rest t ∧
      clusterOf t c = { x with rate := Nat.min r (x.rate + 4), drooping := if Nat.min r (x.rate + 4) = r then none else some r }) ∧
    (∀ mv us : Nat, s.pwr.converting = true →
      ((mv < 4400 ∧ 1000 ≤ us) ∨ (6200 < mv ∧ 100 ≤ us) → ∃ t, exec (.vinChange mv us) s = .next t ∧ off t) ∧
      (4400 ≤ mv → mv < 4600 → 100 ≤ us → ∃ t, exec (.vinChange mv us) s = .next t ∧ t.pwr.vin = mv ∧ (s.pwr.lowVin = false → t.pwr.lowVin = true ∧ effectiveCap t.pwr ≤ 1500) ∧
        t.clusters = s.clusters ∧ t.parts = s.parts) ∧
      (4700 ≤ mv → mv ≤ 5950 → 10000 ≤ us → ∃ t, exec (.vinChange mv us) s = .next t ∧ t.pwr.vin = mv ∧ t.pwr.lowVin = false ∧ t.clusters = s.clusters)) ∧
    (∀ mean peak : Nat, x.drooping = none →
      (mean ≤ 9000 → peak ≤ 10000 → ∃ t, exec (.inputCurrentLimit mean peak) s = .next t ∧ t.pwr.iin = mean ∧ t.clusters = s.clusters) ∧
      (9000 < mean ∨ 10000 < peak → ∃ t, exec (.inputCurrentLimit mean peak) s = .next t ∧ t.pwr.iin = mean ∧
        clusterOf t c = { x with rate := Nat.min x.limit (Nat.max floor (x.rate - 1)) })) ∧
    (∀ low : Bool, ∃ t, exec (.throttleN low) s = .next t ∧ t.pwr.throttleLow = low ∧ t.clusters = s.clusters ∧ (low = true → effectiveCap t.pwr ≤ capLimit s.pwr.extW)) ∧
    (∀ w : Nat, (6 ≤ s.glb.stage → ∃ t, exec (.pldmSetPowerCap w) s = .next t ∧ t.pwr.pldmW = Nat.min 4000 (Nat.max 1500 w) ∧ effectiveCap t.pwr ≤ t.pwr.pldmW ∧ t.clusters = s.clusters) ∧
      (s.glb.stage < 6 → ∃ t, exec (.pldmSetPowerCap w) s = .next t ∧ t = s)) ∧
    ∀ (sensor unit celsius : Nat), s.pwr.converting = true →
      (shutdownAt sensor celsius = true → (∃ t, exec (.thermalShutdown sensor celsius) s = .next t ∧ off t ∧ t.pwr.thermal = true ∧ t.sec.alarmN = true) ∧
        ∃ t, exec (.temperatureThreshold sensor unit celsius) s = .next t ∧ off t ∧ t.pwr.thermal = true ∧ t.sec.alarmN = true) ∧
      (shutdownAt sensor celsius = false → (∃ t, exec (.thermalShutdown sensor celsius) s = .next t ∧ t = s) ∧
        ∃ t, exec (.temperatureThreshold sensor unit celsius) s = .next t ∧ t.clusters = s.clusters ∧ t.mem = s.mem ∧ (sensor = 0 → t.pwr.junction = celsius) ∧
        (sensor = 1 → unit < 12 → ∀ g, chanOf t g = if g / 32 = unit then { chanOf s g with
          capacity := stackCapacity (chanOf s g).capacity celsius, halfRate := decide (stackCapacity (chanOf s g).capacity celsius = 420) } else chanOf s g))

/-- R404–R406, R408: the count advances by the reference tick under its slew; sixteen exchanges give an offset that is stepped at first, or
where the module is far behind, held at half rate where it is far ahead, and slewed otherwise; a cluster that wakes has the count again. -/
def Obligations.MeridianTime : Prop :=
  ∀ (s : State),
    (∃ t, exec .meridianTick s = .next t ∧ t.pwr.meridian * fracUnit + t.pwr.frac = advanced s.pwr ∧ t.pwr.frac < fracUnit ∧ t.mem = s.mem ∧ t.parts = s.parts ∧ t.cores = s.cores) ∧
    (s.pwr.slew = 0 → s.pwr.halfRate = false → ∃ t, exec .meridianTick s = .next t ∧ (s.pwr.frac < fracUnit → t.pwr.meridian = s.pwr.meridian + 10 ∧ t.pwr.frac = s.pwr.frac)) ∧
    (∀ t1 t2 t3 t4 : Nat, isRoot s = false → s.fab.rootValid = true → timeLinked s = true → (routeMask s s.fab.rootId).isSome = true →
      let l := s.pwr.samples ++ [offsetOf t1 t2 t3 t4]
      (l.length < 16 → ∃ t, exec (.timeExchange t1 t2 t3 t4) s = .next t ∧ t = { s with pwr := { s.pwr with samples := l } }) ∧
      let marks (t : State) : Prop := t = { s with pwr := t.pwr, trc := t.trc, hostOut := t.hostOut } ∧
        ((∀ v, (traceOf s v).state = 0) → t = { s with pwr := t.pwr }) ∧ t.pwr.aligned = true ∧ t.pwr.stepped = true ∧ t.pwr.samples = []
      (l.length = 16 → s.pwr.everAligned = false ∨ 10000 < medianInt l → ∃ t, exec (.timeExchange t1 t2 t3 t4) s = .next t ∧ marks t ∧
        t.pwr.meridian = ((s.pwr.meridian : Int) + medianInt l).toNat) ∧
      (l.length = 16 → s.pwr.everAligned = true → medianInt l < -10000 → ∃ t, exec (.timeExchange t1 t2 t3 t4) s = .next t ∧ marks t ∧
        t.pwr.meridian = s.pwr.meridian ∧ t.pwr.halfRate = true) ∧
      (l.length = 16 → s.pwr.everAligned = true → medianInt l ≤ 10000 → -10000 ≤ medianInt l → ∃ t, exec (.timeExchange t1 t2 t3 t4) s = .next t ∧ t = { s with pwr := t.pwr } ∧
        t.pwr.meridian = s.pwr.meridian ∧ t.pwr.slew = slewFor (medianInt l) ∧ -slewMax ≤ t.pwr.slew ∧ t.pwr.slew ≤ slewMax)) ∧
    ∀ c at_ cause : Nat, c < 64 → (clusterOf s c).synced = false → ∃ t, exec (.interpolatorResync c at_ cause) s = .next t ∧
      clusterOf t c = { clusterOf s c with synced := true } ∧ (∀ d, d ≠ c → clusterOf t d = clusterOf s d) ∧ ((traceOf s (c / 16)).state = 0 → t.hostOut = s.hostOut)

/-- R418–R427: a snapshot latches the counters and the time; a trace unit that runs posts a captured record in its ring and one that is off or filters it
writes nothing; a trigger marks its place and enters POST, after which the unit stops with an interrupt. -/
def Obligations.CountersAndTrace : Prop :=
  ∀ (s : State) (u : Nat), u ≤ 7 →
    let x := traceOf s u
    let rest (t : State) : Prop := ∀ v, v ≠ u → traceOf t v = traceOf s v
    (∀ n : Nat, (partOf s n).vd.used = true → ∃ t, exec (.vfCntSnap n) s = .next t ∧ onlyPart s t n ∧
      partOf t n = { partOf s n with vf := { (partOf s n).vf with cntSnap := (List.range 8).map (fun i => tabGet 0 (partOf s n).counters i), cntTime := s.pwr.meridian } }) ∧
    (∀ (typ part source : Nat) (pvalid : Bool) (data : List W64),
      (x.state = 0 ∨ traceCaptured s u typ part pvalid = false → ∃ t, exec (.traceRecord u typ part pvalid source data) s = .next t ∧ t = s) ∧
      (x.state = 1 → traceCaptured s u typ part pvalid = true → trcStream x = false → trcSel x ≠ 1 → x.staged = [] → x.gap = 0 → ∃ t,
        exec (.traceRecord u typ part pvalid source data) s = .next t ∧ rest t ∧ traceOf t u = { x with pidx := (x.pidx + 1) % 2 ^ 32 } ∧
        t.hostOut = s.hostOut ++ [hostWrite s (64 + b2n (bitOf x.ctl 29)) (x.ring + 32 * (x.pidx % 2 ^ x.log2)) (traceBytes u { typ, pvalid, part, source, time := s.pwr.meridian, data := data.take 2 })]) ∧
      (x.state = 3 → traceCaptured s u typ part pvalid = true → ∃ t, exec (.traceRecord u typ part pvalid source data) s = .next t ∧ t = { s with trc := t.trc } ∧ rest t ∧
        traceOf t u = { x with dropped := satAdd 0xFFFF x.dropped 1 })) ∧
    (x.state = 1 → trcStream x = false → x.staged = [] → x.gap = 0 → (∀ v, trcSel (traceOf s v) ≠ 3) → ∃ t, exec (.traceTrigger u 4) s = .next t ∧ rest t ∧
      traceOf t u = { x with pidx := (x.pidx + 1) % 2 ^ 32, trigpos := x.pidx % 2 ^ 32, state := 2, postLeft := trcPost x - 1 } ∧ ∃ w : HostWrite,
      t.hostOut = s.hostOut ++ [w] ∧ w.addr = x.ring + 32 * (x.pidx % 2 ^ x.log2)) ∧
    (x.state ≠ 1 → ∃ t, exec (.traceTrigger u 4) s = .next t ∧ t = s) ∧
    (∀ v : W32, (bitOf v.toNat 31 = true → trcEnable x = false → 10 ≤ x.log2 → x.log2 ≤ 24 → ∃ t, exec (.trcCtlEnable u v) s = .next t ∧ t = { s with trc := t.trc } ∧ rest t ∧
        (traceOf t u).state = 1 ∧ (traceOf t u).dropped = 0 ∧ (traceOf t u).staged = [] ∧ trcEnable (traceOf t u) = true ∧ (traceOf t u).pidx = x.pidx) ∧
      (bitOf v.toNat 31 = true → trcEnable x = false → x.log2 < 10 ∨ 24 < x.log2 → ∃ t, exec (.trcCtlEnable u v) s = .next t ∧ rest t ∧ (traceOf t u).state = x.state) ∧
      (bitOf v.toNat 31 = false → ∃ t, exec (.trcCtlEnable u v) s = .next t ∧ t = { s with trc := t.trc } ∧ rest t ∧ (traceOf t u).state = 0 ∧ trcEnable (traceOf t u) = false)) ∧
    (x.state = 2 → x.postLeft = 0 → ∃ t, exec (.tracePostEnd u) s = .next t ∧ t = { s with trc := t.trc, msix := s.msix ++ [(0, 64, 2045)] } ∧ rest t ∧ traceOf t u = { x with state := 3 })

/-- R430–R433: a claim takes the pending source of lowest priority number, then lowest ID, into service and clears its software bit; the end of
service lets its level count again; software bits, routes and levels make sources pending; the line follows what is pending, moderated. -/
def Obligations.EventController : Prop :=
  ∀ (s : State) (u id : Nat), u ≤ 5 →
    let x := evcOf s u
    let y := evsOf s id
    let private_ (t : State) : Prop := t = { s with evc := t.evc } ∧ ∀ v, v ≠ u → evcOf t v = evcOf s v
    let shared (t : State) : Prop := t = { s with evc := t.evc, evs := t.evs } ∧ ∀ j, j ≠ id → evsOf t j = evsOf s j
    (∀ prio : Nat, (prio, id) ∈ pendingAt s u → (∀ z ∈ pendingAt s u, prio < z.1 ∨ (prio = z.1 ∧ id ≤ z.2)) → (∀ z ∈ pendingAt s u, z.2 < 288) → ∃ t, exec (.evcClaim u) s = .next t ∧
      (evcOf t u).claim = 2 ^ 31 + id ∧
      (id < 32 → private_ t ∧ bitOf (evcOf t u).inService id = true ∧ bitOf (evcOf t u).soft id = false ∧ ∀ i, i < 32 → i ≠ id → bitOf (evcOf t u).inService i = bitOf x.inService i) ∧
      (32 ≤ id → shared t ∧ evsOf t id = { y with inService := true, soft := false, svcTarget := u })) ∧
    (pendingAt s u = [] → ∃ t, exec (.evcClaim u) s = .next t ∧ private_ t ∧ evcOf t u = { x with claim := 0 }) ∧
    (id < 32 → ∃ t, exec (.evcEoi u id) s = .next t ∧ private_ t ∧ bitOf (evcOf t u).inService id = false ∧ (evcOf t u).soft = x.soft ∧ (evcOf t u).level = x.level) ∧
    (32 ≤ id → y.inService = true → y.svcTarget = u → ∃ t, exec (.evcEoi u id) s = .next t ∧ shared t ∧ evsOf t id = { y with inService := false, svcTarget := 0 }) ∧
    (32 ≤ id → (y.inService = false ∨ y.svcTarget ≠ u) → ∃ t, exec (.evcEoi u id) s = .next t ∧ t = s) ∧
    (∀ b : W32, ∃ t, exec (.evcPrivSet u b) s = .next t ∧ private_ t ∧ (evcOf t u).soft = x.soft ||| b.toNat ∧ (evcOf t u).inService = x.inService) ∧
    ((32 ≤ id ∧ id ≤ 287 → ∃ t, exec (.evcShSet u id) s = .next t ∧ shared t ∧ evsOf t id = { y with soft := true }) ∧ (id < 32 → ∃ t, exec (.evcShSet u id) s = .next t ∧ t = s)) ∧
    (∀ v : W32, 32 ≤ id → id ≤ 287 →
      (y.secure = false → bitOf v.toNat 30 = false → bits v.toNat 18 16 ≤ 5 → (u = 0 ∨ u = 5) → ∃ t, exec (.evcShRouteWrite u id v) s = .next t ∧ shared t ∧
        evsOf t id = { y with en := bitOf v.toNat 31, secure := false, target := bits v.toNat 18 16, prio := bits v.toNat 1 0 }) ∧
      (maySecure id = true → bitOf v.toNat 30 = true → u = 5 → ∃ t, exec (.evcShRouteWrite u id v) s = .next t ∧ shared t ∧
        evsOf t id = { y with en := bitOf v.toNat 31, secure := true, target := 5, prio := bits v.toNat 1 0 }) ∧
      ((u ≠ 0 ∧ u ≠ 5) ∨ (y.secure = true ∧ u ≠ 5) ∨ (bitOf v.toNat 30 = true ∧ u ≠ 5) → ∃ t, exec (.evcShRouteWrite u id v) s = .next t ∧ t = s)) ∧
    (∀ level : Bool, (32 ≤ id → id ≤ 287 → ∃ t, exec (.eventSourceLevel u id level) s = .next t ∧ shared t ∧ evsOf t id = { y with level := level }) ∧
      (id < 32 → ∃ t, exec (.eventSourceLevel u id level) s = .next t ∧ private_ t ∧ bitOf (evcOf t u).level id = level ∧ (evcOf t u).soft = x.soft)) ∧
    (pendingAt s u ≠ [] → ∃ t, exec (.moderationTimeout u) s = .next t ∧ private_ t ∧ evcOf t u = { x with line := true })

/-- R9–R11: an access that is not aligned to its width, or a narrow one to a register, completes with Unsupported Request and has no effect; an
unassigned offset reads zero and ignores writes; a 64-bit register is read and written whole, or in two halves, low half first, of which
the first latches or is held; a 64-bit access to anything else is two 32-bit ones. GLB_ARCH_ID reads 3.0. -/
def Obligations.RegisterAccess : Prop :=
  ∀ (s : State) (bar f port o w : Nat) (tb : Bool) (v : View) (x : W64), viewOf s bar f port = some v → teeRefuses s v o tb = false →
    let read (o w : Nat) : Instr := .registerRead bar f port o w tb
    let write (o w : Nat) (x : W64) : Instr := .registerWrite bar f port o w x tb
    (w = 8 ∨ w = 16 ∨ w = 32 ∨ w = 64 → o % (w / 8) ≠ 0 →
      exec (read o w) s = .next { s with reads := s.reads ++ [.ur] } ∧ exec (write o w x) s = .next s) ∧
    (w = 8 ∨ w = 16 → o % (w / 8) = 0 →
      ((regAt s v (o / 4 * 4)).isSome = true → exec (read o w) s = .next { s with reads := s.reads ++ [.ur] }) ∧
      ((regAt s v (o / 4 * 4)).isSome = false → exec (read o w) s = .next { s with reads := s.reads ++ [.value w 0] }) ∧
      exec (write o w x) s = .next s) ∧
    (o % 4 = 0 → regAt s v o = none →
      exec (read o 32) s = .next { s with reads := s.reads ++ [.value 32 0] } ∧ exec (write o 32 x) s = .next s ∧
      (o % 8 = 0 → regAt s v (o + 4) = none →
        exec (read o 64) s = .next { s with reads := s.reads ++ [.value 64 0] } ∧ exec (write o 64 x) s = .next s)) ∧
    (∀ r : Reg, o % 4 = 0 → regAt s v o = some r → r.wide = false → (∀ t, v ≠ .evc t) → ∃ t, exec (read o 32) s = .next t ∧
      t = { s with half := t.half, reads := s.reads ++ [.value 32 (BitVec.ofNat 64 r.value)] } ∧ halfOf t v = none) ∧
    (∀ r : Reg, o % 8 = 0 → regAt s v o = some r → r.wide = true → r.base = o → teeRefuses s v (o + 4) tb = false →
      regAt s v (o + 4) = some r →
      (∃ t, exec (read o 64) s = .next t ∧ t = { s with half := t.half, reads := s.reads ++ [.value 64 (BitVec.ofNat 64 r.value)] } ∧ halfOf t v = none) ∧
      (∃ t, exec (read o 32) s = .next t ∧ t = { s with half := t.half, reads := s.reads ++ [.value 32 (BitVec.ofNat 64 (r.value % 2 ^ 32))] } ∧
        ∃ h, halfOf t v = some h ∧ h.offset = o ∧ h.latched = some (r.value / 2 ^ 32)) ∧
      (∀ h : HalfReg, halfOf s v = some h → h.offset = o → ∃ t, exec (read (o + 4) 32) s = .next t ∧
        t = { s with half := t.half, reads := s.reads ++ [.value 32 (BitVec.ofNat 64 (h.latched.getD (r.value / 2 ^ 32)))] } ∧
        ∀ g, halfOf t v = some g → g.latched = none) ∧
      (∃ t, exec (write o 32 x) s = .next t ∧ t = { s with half := t.half } ∧
        ∃ h, halfOf t v = some h ∧ h.offset = o ∧ h.heldLow = some (x.toNat % 2 ^ 32)) ∧
      (∀ (h : HalfReg) (lo : Nat), halfOf s v = some h → h.offset = o → h.heldLow = some lo → ∃ u, u = { s with half := u.half } ∧
        exec (write (o + 4) 32 x) s = .next (writeWide u v o (x.toNat % 2 ^ 32 * 2 ^ 32 + lo)) ∧ ∀ g, halfOf u v = some g → g.heldLow = none) ∧
      ∃ u, u = { s with half := u.half } ∧ exec (write o 64 x) s = .next (writeWide u v o x.toNat) ∧ halfOf u v = none) ∧
    (bar = 0 → f = 0 → ∃ t, exec (read 8 32) s = .next t ∧ t.reads = s.reads ++ [.value 32 0x0300])

/-- R150: MEM_PATROL holds the patrol period in hours; what is written to it, limited to 1 to 24, is what it reads, its reserved bits read zero, and
it reads 8 after reset. -/
def Obligations.PatrolPeriod : Prop :=
  (∀ (s : State) (port : Nat) (x : W64) (tb : Bool), port < 2 → s.nv.lifecycle ≠ 3 →
    let hours := Nat.max 1 (Nat.min 24 (x.toNat % 256))
    ∃ t, exec (.registerWrite 0 0 port 0x500000 32 x tb) s = .next t ∧ t = { s with patrolH := hours, half := t.half } ∧
      ∃ u, exec (.registerRead 0 0 port 0x500000 32 tb) t = .next u ∧ u.reads = s.reads ++ [.value 32 (BitVec.ofNat 64 hours)]) ∧
  ∀ (port : Nat) (tb : Bool), port < 2 → ∃ t, exec (.registerRead 0 0 port 0x500000 32 tb) State.reset = .next t ∧ t.reads = [.value 32 8]

/-- R355, R356, R443–R449, R451, R452: bring-up starts with PWR_EN high and VIN in range; PWR_EN and MOD_RST_N reset the module cold and warm;
Cartouche boots the active slot, or else the other, and neither below the fused minimum; a stack that fails is tried once more, and the
module is ready when every stack has been tried; an update writes the slot that does not run, which boots once it is activated. -/
def Obligations.BringUp : Prop :=
  ∀ (s : State),
    let good : Prop := 4600 ≤ s.pwr.vin ∧ s.pwr.vin ≤ 5950
    (s.pwr.converting = false → s.pwr.pwrEn = false →
      (good → s.pwr.thermal = false ∨ s.pwr.coldPlate ≤ 70 → ∃ t, exec .pwrEnRise s = .next t ∧ t.pwr.converting = true ∧ t.pwr.pwrEn = true ∧ t.glb.cold = true ∧
        t.glb.stage = (if s.pwr.modRstLow then 3 else 4) ∧ t.glb.bootRef = s.pwr.meridian ∧ t.sec.alarmN = false ∧ t.nv = s.nv ∧ t.mem = s.mem ∧ t.slices = s.slices) ∧
      (¬ good → exec .pwrEnRise s = .next { s with pwr := { s.pwr with pwrEn := true } })) ∧
    (∃ t, exec .pwrEnFall s = .next t ∧ t.pwr.converting = false ∧ t.pwr.pwrEn = false ∧ t.nv = s.nv ∧ t.cores = [] ∧ t.mem = [] ∧ t.err.dumpValid = false ∧
      t.pwr.meridian = s.pwr.meridian ∧ ∀ k, (sliceOf t k).state = (if (sliceOf s k).state = .retired then .retired else (sliceOf {} k).state)) ∧
    (s.pwr.modRstLow = false → s.pwr.converting = true → ∃ t, exec .modRstNFall s = .next t ∧ t.pwr.modRstLow = true ∧ t.glb.stage = 3 ∧ t.glb.ready = false ∧
      t.cores = [] ∧ t.mem = [] ∧ t.err.dumpValid = true ∧ (s.err.dumpValid = false → t.err.dumpReason = s.err.failing.getD 1) ∧ t.glb.moduleId = s.glb.moduleId ∧
      t.pwr.meridian = s.pwr.meridian ∧ t.nv.svnFused = s.nv.svnFused) ∧
    (s.pwr.modRstLow = false → s.pwr.converting = false → exec .modRstNFall s = .next { s with pwr := { s.pwr with modRstLow := true } }) ∧
    (s.pwr.modRstLow = true → s.pwr.converting = true → exec .modRstNRise s = .next
      { s with pwr := { s.pwr with modRstLow := false }, glb := { s.glb with stage := 4, bootRef := s.pwr.meridian } }) ∧
    (∀ okA okB : Bool, s.pwr.converting = true → s.pwr.modRstLow = false → s.nv.lifecycle ≠ 3 → s.glb.stage = 4 → s.sec.latched = [] →
      let img (b : Bool) : FwSlot := if b then s.nv.slotB else s.nv.slotA
      let passes (b : Bool) : Prop := (if b then okB else okA) = true ∧ (img b).good = true ∧ s.nv.svnFused ≤ (img b).svn
      let boots (t : State) (b : Bool) : Prop := t.glb.stage = 6 ∧ t.sec.slot = b ∧ t.sec.svnRunning = (img b).svn ∧ t.nv.bootCount = s.nv.bootCount + 1
      (passes s.nv.bootB → ∃ t, exec (.secureBoot okA okB) s = .next t ∧ boots t s.nv.bootB ∧ t.sec.fallback = false ∧ t.sec.a1 = s.sec.a1) ∧
      (¬ passes s.nv.bootB → passes (!s.nv.bootB) → ∃ t, exec (.secureBoot okA okB) s = .next t ∧ boots t (!s.nv.bootB) ∧ t.sec.fallback = true ∧
        t.sec.lastSource = 6) ∧
      (¬ passes s.nv.bootB → ¬ passes (!s.nv.bootB) → ∃ t, exec (.secureBoot okA okB) s = .next t ∧ t.glb.stage = 4 ∧ t.sec.slot = s.sec.slot ∧ t.sec.lastSource = 6)) ∧
    (∀ k : Nat, k < 12 → 6 ≤ s.glb.stage → s.glb.ready = false → s.pwr.modRstLow = false → s.pwr.converting = true → bitOf s.glb.tried k = false →
      (bitOf s.glb.failedOnce k = false →
        exec (.stackTraining k false) s = .next { s with glb := { s.glb with failedOnce := s.glb.failedOnce + 2 ^ k } }) ∧
      (s.glb.tried + 2 ^ k ≠ 4095 →
        (∃ t, exec (.stackTraining k true) s = .next t ∧ t.glb = { s.glb with tried := s.glb.tried + 2 ^ k, stackBits := s.glb.stackBits + 2 ^ k } ∧
          ∀ g, chanOf t g = if g / 32 = k then { chanOf s g with trained := true } else chanOf s g) ∧
        (bitOf s.glb.failedOnce k = true →
          exec (.stackTraining k false) s = .next { s with glb := { s.glb with tried := s.glb.tried + 2 ^ k } })) ∧
      (s.glb.tried + 2 ^ k = 4095 → s.fab.reclaim = false → ∃ t, exec (.stackTraining k true) s = .next t ∧ t.glb.ready = true ∧ t.glb.stage = 10 ∧
        ∀ j, j < 448 → (sliceOf s j).state ≠ .retired →
          (sliceOf t j).state = (if (j < 64 ∨ (chanOf t (j - 64)).trained = true) ∧ ¬ (64 ≤ j ∧ (sliceOf s j).state = .held ∧ (sliceOf s j).testing = true) then .free else .held))) ∧
    (∀ (svn : Nat) (ok : Bool), 6 ≤ s.glb.stage → s.nv.lifecycle ≠ 3 → svn < 256 →
      let run (t : State) : FwSlot := if s.sec.slot then t.nv.slotB else t.nv.slotA
      let other (t : State) : FwSlot := if s.sec.slot then t.nv.slotA else t.nv.slotB
      (s.sec.updating = false → ∃ t, exec (.pldmFwTransfer svn ok) s = .next t ∧ t.sec.updating = true ∧ other t = { svn, good := false } ∧ run t = run s) ∧
      (s.sec.updating = true → (other s).good = false → ok = true → s.nv.svnFused ≤ svn → ∃ t, exec (.pldmFwTransfer svn ok) s = .next t ∧
        t.sec.updating = true ∧ other t = { svn, good := true } ∧ run t = run s) ∧
      (s.sec.updating = true → (other s).good = false → ok = false ∨ svn < s.nv.svnFused → ∃ t, exec (.pldmFwTransfer svn ok) s = .next t ∧
        t.sec.updating = false ∧ t.sec.lastSource = 6 ∧ run t = run s ∧ other t = other s) ∧
      (s.sec.updating = true → (other s).good = true →
        (∃ t, exec (.pldmFwTransfer svn ok) s = .next t ∧ t = { s with answers := t.answers }) ∧
        ∃ t, exec .activateFirmware s = .next t ∧ t.nv = { s.nv with bootB := !s.sec.slot } ∧ t.sec = { s.sec with updating := false }) ∧
      (s.sec.updating = false → ∃ t, exec .activateFirmware s = .next t ∧ t = { s with answers := t.answers }))

/-- R101: WAITMSG lets its core go on once a channel of its mask holds a message, from whatever source, with the mask of such channels in rd; until
then the core blocks, or stops at once for a pending pre-emption, and a message that arrives on such a channel releases it; at its limit it writes zero; the inbox keeps every message. -/
def Obligations.Waitmsg : Prop :=
  ∀ (s : State) (c : Nat) (rd ra rb : BitVec 5) (mask limit since : Nat),
    let k := coreOf s c
    let ready (l : List Msg) (ch : Nat) : Prop := ch < 16 ∧ mask.testBit ch = true ∧ ∃ m ∈ l, m.chan = ch
    let released (k' : Core) (l : List Msg) : Prop := k'.inbox = l ∧ k'.blocked = .none ∧ k'.pc = k.pc + 1 ∧
      (rd ≠ 0 → ∀ ch, ch < 64 → ((sRead k' rd.toNat).getLsbD ch = true ↔ ready l ch)) ∧ ∀ r, r ≠ rd.toNat → sRead k' r = sRead k r
    (canIssue s c → atPc s c (.waitmsg c rd ra rb 0 0) → mask < 2 ^ 16 → (sRead k ra.toNat).toNat = mask →
      ((∀ ch, ¬ ready k.inbox ch) → exec (.waitmsg c rd ra rb 0 0) s = .next (issued s c (if k.preemptReq then { k with mode := .draining, cause := 0 }
        else { k with blocked := .waitmsg rd.toNat mask (sRead k rb.toNat).toNat s.pwr.meridian }))) ∧
      ((∃ ch, ready k.inbox ch) → ∃ k', exec (.waitmsg c rd ra rb 0 0) s = .next (issued s c k') ∧ released k' k.inbox)) ∧
    (k.mode = .running → k.blocked = .waitmsg rd.toNat mask limit since →
      (∀ (n l : Nat) (m : Msg) (rest : List Msg), (partOf s n).launches = [(l, { launchOf s n l with flight := m :: rest })] → (launchOf s n l).live = true →
        m.dst < 2 ^ 31 → (tabGet {} (launchOf s n l).tasks m.dst).state = .bound → (tabGet {} (launchOf s n l).tasks m.dst).core = c → (launchOf s n l).spill = [] → k.awaitFwd = false →
        (∀ mid, forwardPlace s n l m.dst = some mid → ∃ t p, exec (.messageDeliver ⟨s.glb.moduleId, n⟩ m) s = .next t ∧ coreOf t c = k ∧ t.fab.out = s.fab.out ++ [p] ∧
          p.kind = 1 ∧ p.dst = mid ∧ p.dtask = m.dst ∧ p.payload = m.payload) ∧
        (forwardPlace s n l m.dst = none → (∃ ch, ready (k.inbox ++ [m]) ch) → ∃ t, exec (.messageDeliver ⟨s.glb.moduleId, n⟩ m) s = .next t ∧ released (coreOf t c) (k.inbox ++ [m])) ∧
        (forwardPlace s n l m.dst = none → (∀ ch, ¬ ready (k.inbox ++ [m]) ch) → ∃ t, exec (.messageDeliver ⟨s.glb.moduleId, n⟩ m) s = .next t ∧ coreOf t c = { k with inbox := k.inbox ++ [m] })) ∧
      (limit ≠ 0 → ∃ t, exec (.waitmsgTimeout c) s = .next t ∧ (coreOf t c).inbox = k.inbox ∧ (coreOf t c).blocked = .none ∧ (coreOf t c).pc = k.pc + 1 ∧
        sRead (coreOf t c) rd.toNat = 0 ∧ ∀ d, d ≠ c → coreOf t d = coreOf s d) ∧
      (limit = 0 → exec (.waitmsgTimeout c) s = .next s))

/-- What reset leaves: nothing listed in memory, no slice assigned, no virtual device, no queue of commands, and the registers read what their tables
give. Registers that no table gives are the model's choice (log 5, log 7). -/
def Obligations.ResetState : Prop :=
  memCanonical State.reset ∧ State.reset.pending = [] ∧ State.reset.mem = [] ∧ (∀ k, (sliceOf State.reset k).state = .free) ∧
  (∀ n, (partOf State.reset n).vd.used = false ∧ (partOf State.reset n).ctx.state = .none) ∧
  (∀ c, (coreOf State.reset c).mode = .idle ∧ (coreOf State.reset c).queue = []) ∧
  ∀ (o v : Nat), (o, v) ∈ ([(0x8, 0x0300), (0x10, 0x184C2040), (0x14, 0), (0x20, 0x40000000), (0x100010, 0), (0x100018, 0), (0x200010, 0), (0x300008, 0), (0x300010, 0),
      (0x500000, 8), (0x600000, 0x18101E00), (0x600008, 0), (0x700000, 0x0FA005DC), (0x700004, 0x0FA00FA0), (0x700008, 0x05DC), (0x700018, 0),
      (0x700100, 0x07080708), (0x700200, 0x4040), (0x800000, 0x08080000),
      (0x900000, 0x10000400), (0x900004, 0), (0x900020, 0), (0xA00010, 0)] : List (Nat × Nat)) → ∃ t,
    exec (.registerRead 0 0 0 o 32 false) State.reset = .next t ∧ t.reads = [.value 32 (BitVec.ofNat 64 v)]

/-- Every step keeps memory in its canonical form, so that equal memories are equal data. -/
def Obligations.MemoryStaysCanonical : Prop := ∀ s t : State, memCanonical s → step s = .next t → memCanonical t

/-- R352, R356: every command goes on and leaves the waiting commands; none but COMMIT_SVN changes the fused minimum, which then rises to the running
version, of at most 64, and is refused after a boot by fallback; no boot runs an image below the minimum; the lifecycle state never changes
but to KILLED; RSEQ never falls. -/
def Obligations.FusedMinimumAndQueue : Prop :=
  (∀ (i : Instr) (s : State), ∃ t, exec i s = .next t ∧ t.pending = s.pending ∧
    (t.nv.svnFused = s.nv.svnFused ∨
      i = .commitSvn ∧ s.sec.fallback = false ∧ s.nv.svnFused < t.nv.svnFused ∧ t.nv.svnFused = s.sec.svnRunning ∧ t.nv.svnFused ≤ 64) ∧
    (t.nv.lifecycle = s.nv.lifecycle ∨ t.nv.lifecycle = 3) ∧ s.nv.rseq ≤ t.nv.rseq) ∧
  (∀ s : State, mbxStarted s 3 = true →
    (s.sec.fallback = true → ∃ t, exec .commitSvn s = .next t ∧ t.nv = s.nv ∧ t.sec.mbxStatus = 0x14) ∧
    (s.sec.fallback = false → s.nv.svnFused ≤ s.sec.svnRunning → s.sec.svnRunning ≤ 64 → ∃ t, exec .commitSvn s = .next t ∧
      t.nv = { s.nv with svnFused := s.sec.svnRunning } ∧ t.sec.mbxStatus = 0)) ∧
  ∀ (s t : State) (okA okB : Bool), exec (.secureBoot okA okB) s = .next t → s.glb.stage ≠ 6 → t.glb.stage = 6 →
    s.nv.svnFused ≤ (if t.sec.slot then s.nv.slotB else s.nv.slotA).svn
end

