-- ==== Sys2Proof/Laws/Table.lean ====
section
/-! SUPPORT. Laws of the sparse tables: read after write, writes elsewhere, the canonical form kept. -/

namespace Sys2Proof.Laws

open Sys2Proof.Machine

theorem tabGet_tabDel {α : Type} (d : α) (t : Tab α) (i j : Nat) :
    tabGet d (tabDel t i) j = if j = i then d else tabGet d t j := by
  induction t with
  | nil => simp [tabDel, tabGet]
  | cons e t ih =>
    obtain ⟨k, v⟩ := e
    simp only [tabDel]
    split
    · subst_vars; rw [ih]; split <;> simp_all [tabGet]
    · simp only [tabGet]; rw [ih]; split <;> split <;> simp_all

theorem tabGet_tabIns {α : Type} (d : α) (t : Tab α) (i : Nat) (x : α) (j : Nat) :
    tabGet d (tabIns t i x) j = if j = i then x else tabGet d t j := by
  induction t with
  | nil => simp [tabIns, tabGet]
  | cons e t ih =>
    obtain ⟨k, v⟩ := e
    simp only [tabIns]
    split
    · simp [tabGet]
    · split
      · subst_vars; simp only [tabGet]; split <;> rfl
      · simp only [tabGet]; rw [ih]; split <;> split <;> simp_all

/-- Read after write. -/
@[simp] theorem tabGet_tabSet {α : Type} [DecidableEq α] (d : α) (t : Tab α) (i : Nat) (x : α) (j : Nat) :
    tabGet d (tabSet d t i x) j = if j = i then x else tabGet d t j := by
  unfold tabSet
  split
  · rw [tabGet_tabDel]; split <;> simp_all
  · exact tabGet_tabIns d t i x j

@[simp] theorem tabGet_tabMod {α : Type} [DecidableEq α] (d : α) (t : Tab α) (i : Nat) (f : α → α) (j : Nat) :
    tabGet d (tabMod d t i f) j = if j = i then f (tabGet d t i) else tabGet d t j := tabGet_tabSet ..

@[simp] theorem tabGet_nil {α : Type} (d : α) (i : Nat) : tabGet d [] i = d := rfl

theorem tabWfFrom_weaken {α : Type} [DecidableEq α] (d : α) (t : Tab α) (a b : Nat) (h : a ≤ b)
    (w : tabWfFrom d (some b) t = true) : tabWfFrom d (some a) t = true := by
  cases t with
  | nil => rfl
  | cons e t =>
    obtain ⟨k, v⟩ := e
    simp only [tabWfFrom, Bool.and_eq_true, decide_eq_true_eq] at w ⊢
    exact ⟨⟨by omega, w.1.2⟩, w.2⟩

theorem tabWfFrom_none {α : Type} [DecidableEq α] (d : α) (t : Tab α) (lo : Option Nat)
    (w : tabWfFrom d lo t = true) : tabWfFrom d none t = true := by
  cases t with
  | nil => rfl
  | cons e t =>
    obtain ⟨k, v⟩ := e
    cases lo <;> simp_all [tabWfFrom]

theorem tabWfFrom_del {α : Type} [DecidableEq α] (d : α) (t : Tab α) (i : Nat) (lo : Option Nat)
    (w : tabWfFrom d lo t = true) : tabWfFrom d lo (tabDel t i) = true := by
  induction t generalizing lo with
  | nil => rfl
  | cons e t ih =>
    obtain ⟨k, v⟩ := e
    simp only [tabWfFrom, Bool.and_eq_true] at w
    simp only [tabDel]
    split
    · apply ih
      cases lo with
      | none => exact tabWfFrom_none d t _ w.2
      | some l =>
        have h := w.1.1
        simp only [decide_eq_true_eq] at h
        exact tabWfFrom_weaken d t l k (by omega) w.2
    · simp only [tabWfFrom, Bool.and_eq_true]; exact ⟨w.1, ih _ w.2⟩

theorem tabWfFrom_ins {α : Type} [DecidableEq α] (d : α) (t : Tab α) (i : Nat) (x : α) (hx : x ≠ d) (lo : Option Nat)
    (hlo : ∀ l, lo = some l → l < i) (w : tabWfFrom d lo t = true) : tabWfFrom d lo (tabIns t i x) = true := by
  induction t generalizing lo with
  | nil => cases lo <;> simp_all [tabIns, tabWfFrom]
  | cons e t ih =>
    obtain ⟨k, v⟩ := e
    simp only [tabWfFrom, Bool.and_eq_true, decide_eq_true_eq] at w
    simp only [tabIns]
    split
    · cases lo <;> simp_all [tabWfFrom]
    · split
      · subst_vars; simp only [tabWfFrom, Bool.and_eq_true, decide_eq_true_eq]; exact ⟨⟨w.1.1, hx⟩, w.2⟩
      · simp only [tabWfFrom, Bool.and_eq_true, decide_eq_true_eq]
        exact ⟨w.1, ih (some k) (by intro l h; cases h; omega) w.2⟩

/-- A write keeps the canonical form. -/
theorem tabWf_tabSet {α : Type} [DecidableEq α] (d : α) (t : Tab α) (i : Nat) (x : α) (w : tabWf d t = true) :
    tabWf d (tabSet d t i x) = true := by
  unfold tabSet tabWf at *
  split
  · exact tabWfFrom_del d t i none w
  · rename_i h; exact tabWfFrom_ins d t i x h none (by intro l h; cases h) w

theorem tabWf_tabMod {α : Type} [DecidableEq α] (d : α) (t : Tab α) (i : Nat) (f : α → α) (w : tabWf d t = true) :
    tabWf d (tabMod d t i f) = true := tabWf_tabSet d t i _ w

/-- Writing bytes keeps the canonical form of memory. -/
theorem tabWf_tabPut (t : Tab Byte) (a : Nat) (bs : List Byte) (w : tabWf 0#8 t = true) : tabWf 0#8 (tabPut t a bs) = true := by
  induction bs generalizing t a with
  | nil => exact w
  | cons b bs ih => exact ih _ _ (tabWf_tabSet 0#8 t a b w)

/-- A byte outside the span that a write covers is as before. -/
theorem tabGet_tabPut_outside (t : Tab Byte) (a : Nat) (bs : List Byte) (j : Nat) (h : j < a ∨ a + bs.length ≤ j) :
    tabGet 0#8 (tabPut t a bs) j = tabGet 0#8 t j := by
  induction bs generalizing t a with
  | nil => rfl
  | cons b bs ih =>
    simp only [List.length_cons] at h
    rw [tabPut, ih _ _ (by omega), tabGet_tabSet]
    split
    · omega
    · rfl

/-- A byte inside the span reads as written. -/
theorem tabGet_tabPut_inside (t : Tab Byte) (a : Nat) (bs : List Byte) (i : Nat) (h : i < bs.length) :
    tabGet 0#8 (tabPut t a bs) (a + i) = bs.getD i 0#8 := by
  induction bs generalizing t a i with
  | nil => simp at h
  | cons b bs ih =>
    rw [tabPut]
    cases i with
    | zero => rw [tabGet_tabPut_outside _ _ _ _ (by omega)]; simp
    | succ i =>
      have := ih (tabSet 0#8 t a b) (a + 1) i (by simpa using h)
      simpa [Nat.add_assoc, Nat.add_comm 1 i] using this

theorem tabWf_nil {α : Type} [DecidableEq α] (d : α) : tabWf d ([] : Tab α) = true := rfl

end Sys2Proof.Laws
end

