-- ==== Sys2Proof/Laws/State.lean ====
section
/-! SUPPORT. What each change of one entry of State leaves and writes: one lemma for each field and update. -/

namespace Sys2Proof.Laws

open Sys2Proof.Machine

@[simp] theorem coreOf_modCore (s : State) (i : Nat) (g : Core → Core) (j : Nat) :
    coreOf (modCore s i g) j = if j = i then g (coreOf s i) else coreOf s j := tabGet_tabMod ..
@[simp] theorem coreOf_modCore_self (s : State) (i : Nat) (g : Core → Core) : coreOf (modCore s i g) i = g (coreOf s i) := by simp
@[simp] theorem clusterOf_modCore (s : State) (i : Nat) (g : Core → Core) (j : Nat) : clusterOf (modCore s i g) j = clusterOf s j := rfl
@[simp] theorem chanOf_modCore (s : State) (i : Nat) (g : Core → Core) (j : Nat) : chanOf (modCore s i g) j = chanOf s j := rfl
@[simp] theorem granuleOf_modCore (s : State) (i : Nat) (g : Core → Core) (j : Nat) : granuleOf (modCore s i g) j = granuleOf s j := rfl
@[simp] theorem partOf_modCore (s : State) (i : Nat) (g : Core → Core) (j : Nat) : partOf (modCore s i g) j = partOf s j := rfl
@[simp] theorem linkOf_modCore (s : State) (i : Nat) (g : Core → Core) (j : Nat) : linkOf (modCore s i g) j = linkOf s j := rfl
@[simp] theorem portOf_modCore (s : State) (i : Nat) (g : Core → Core) (j : Nat) : portOf (modCore s i g) j = portOf s j := rfl
@[simp] theorem traceOf_modCore (s : State) (i : Nat) (g : Core → Core) (j : Nat) : traceOf (modCore s i g) j = traceOf s j := rfl
@[simp] theorem sliceOf_modCore (s : State) (i : Nat) (g : Core → Core) (j : Nat) : sliceOf (modCore s i g) j = sliceOf s j := rfl
@[simp] theorem modCore_pending (s : State) (i : Nat) (g : Core → Core) : (modCore s i g).pending = s.pending := rfl
@[simp] theorem modCore_mem (s : State) (i : Nat) (g : Core → Core) : (modCore s i g).mem = s.mem := rfl
@[simp] theorem modCore_poison (s : State) (i : Nat) (g : Core → Core) : (modCore s i g).poison = s.poison := rfl
@[simp] theorem modCore_lmeta (s : State) (i : Nat) (g : Core → Core) : (modCore s i g).lmeta = s.lmeta := rfl
@[simp] theorem modCore_cache (s : State) (i : Nat) (g : Core → Core) : (modCore s i g).cache = s.cache := rfl
@[simp] theorem modCore_clusters (s : State) (i : Nat) (g : Core → Core) : (modCore s i g).clusters = s.clusters := rfl
@[simp] theorem modCore_chans (s : State) (i : Nat) (g : Core → Core) : (modCore s i g).chans = s.chans := rfl
@[simp] theorem modCore_granules (s : State) (i : Nat) (g : Core → Core) : (modCore s i g).granules = s.granules := rfl
@[simp] theorem modCore_slices (s : State) (i : Nat) (g : Core → Core) : (modCore s i g).slices = s.slices := rfl
@[simp] theorem modCore_parts (s : State) (i : Nat) (g : Core → Core) : (modCore s i g).parts = s.parts := rfl
@[simp] theorem modCore_links (s : State) (i : Nat) (g : Core → Core) : (modCore s i g).links = s.links := rfl
@[simp] theorem modCore_ports (s : State) (i : Nat) (g : Core → Core) : (modCore s i g).ports = s.ports := rfl
@[simp] theorem modCore_fab (s : State) (i : Nat) (g : Core → Core) : (modCore s i g).fab = s.fab := rfl
@[simp] theorem modCore_sur (s : State) (i : Nat) (g : Core → Core) : (modCore s i g).sur = s.sur := rfl
@[simp] theorem modCore_pwr (s : State) (i : Nat) (g : Core → Core) : (modCore s i g).pwr = s.pwr := rfl
@[simp] theorem modCore_trc (s : State) (i : Nat) (g : Core → Core) : (modCore s i g).trc = s.trc := rfl
@[simp] theorem modCore_modCnt (s : State) (i : Nat) (g : Core → Core) : (modCore s i g).modCnt = s.modCnt := rfl
@[simp] theorem modCore_evc (s : State) (i : Nat) (g : Core → Core) : (modCore s i g).evc = s.evc := rfl
@[simp] theorem modCore_evs (s : State) (i : Nat) (g : Core → Core) : (modCore s i g).evs = s.evs := rfl
@[simp] theorem modCore_err (s : State) (i : Nat) (g : Core → Core) : (modCore s i g).err = s.err := rfl
@[simp] theorem modCore_sec (s : State) (i : Nat) (g : Core → Core) : (modCore s i g).sec = s.sec := rfl
@[simp] theorem modCore_nv (s : State) (i : Nat) (g : Core → Core) : (modCore s i g).nv = s.nv := rfl
@[simp] theorem modCore_glb (s : State) (i : Nat) (g : Core → Core) : (modCore s i g).glb = s.glb := rfl
@[simp] theorem modCore_cq (s : State) (i : Nat) (g : Core → Core) : (modCore s i g).cq = s.cq := rfl
@[simp] theorem modCore_atl (s : State) (i : Nat) (g : Core → Core) : (modCore s i g).atl = s.atl := rfl
@[simp] theorem modCore_patrolH (s : State) (i : Nat) (g : Core → Core) : (modCore s i g).patrolH = s.patrolH := rfl
@[simp] theorem modCore_half (s : State) (i : Nat) (g : Core → Core) : (modCore s i g).half = s.half := rfl
@[simp] theorem modCore_hostOut (s : State) (i : Nat) (g : Core → Core) : (modCore s i g).hostOut = s.hostOut := rfl
@[simp] theorem modCore_hostIn (s : State) (i : Nat) (g : Core → Core) : (modCore s i g).hostIn = s.hostIn := rfl
@[simp] theorem modCore_retries (s : State) (i : Nat) (g : Core → Core) : (modCore s i g).retries = s.retries := rfl
@[simp] theorem modCore_msix (s : State) (i : Nat) (g : Core → Core) : (modCore s i g).msix = s.msix := rfl
@[simp] theorem modCore_reads (s : State) (i : Nat) (g : Core → Core) : (modCore s i g).reads = s.reads := rfl
@[simp] theorem modCore_answers (s : State) (i : Nat) (g : Core → Core) : (modCore s i g).answers = s.answers := rfl
@[simp] theorem modCore_resp (s : State) (i : Nat) (g : Core → Core) : (modCore s i g).resp = s.resp := rfl
@[simp] theorem modCore_draws (s : State) (i : Nat) (g : Core → Core) : (modCore s i g).draws = s.draws := rfl
@[simp] theorem clusterOf_modCluster (s : State) (i : Nat) (g : Cluster → Cluster) (j : Nat) :
    clusterOf (modCluster s i g) j = if j = i then g (clusterOf s i) else clusterOf s j := tabGet_tabMod ..
@[simp] theorem clusterOf_modCluster_self (s : State) (i : Nat) (g : Cluster → Cluster) : clusterOf (modCluster s i g) i = g (clusterOf s i) := by simp
@[simp] theorem coreOf_modCluster (s : State) (i : Nat) (g : Cluster → Cluster) (j : Nat) : coreOf (modCluster s i g) j = coreOf s j := rfl
@[simp] theorem chanOf_modCluster (s : State) (i : Nat) (g : Cluster → Cluster) (j : Nat) : chanOf (modCluster s i g) j = chanOf s j := rfl
@[simp] theorem granuleOf_modCluster (s : State) (i : Nat) (g : Cluster → Cluster) (j : Nat) : granuleOf (modCluster s i g) j = granuleOf s j := rfl
@[simp] theorem partOf_modCluster (s : State) (i : Nat) (g : Cluster → Cluster) (j : Nat) : partOf (modCluster s i g) j = partOf s j := rfl
@[simp] theorem linkOf_modCluster (s : State) (i : Nat) (g : Cluster → Cluster) (j : Nat) : linkOf (modCluster s i g) j = linkOf s j := rfl
@[simp] theorem portOf_modCluster (s : State) (i : Nat) (g : Cluster → Cluster) (j : Nat) : portOf (modCluster s i g) j = portOf s j := rfl
@[simp] theorem traceOf_modCluster (s : State) (i : Nat) (g : Cluster → Cluster) (j : Nat) : traceOf (modCluster s i g) j = traceOf s j := rfl
@[simp] theorem sliceOf_modCluster (s : State) (i : Nat) (g : Cluster → Cluster) (j : Nat) : sliceOf (modCluster s i g) j = sliceOf s j := rfl
@[simp] theorem modCluster_pending (s : State) (i : Nat) (g : Cluster → Cluster) : (modCluster s i g).pending = s.pending := rfl
@[simp] theorem modCluster_mem (s : State) (i : Nat) (g : Cluster → Cluster) : (modCluster s i g).mem = s.mem := rfl
@[simp] theorem modCluster_poison (s : State) (i : Nat) (g : Cluster → Cluster) : (modCluster s i g).poison = s.poison := rfl
@[simp] theorem modCluster_lmeta (s : State) (i : Nat) (g : Cluster → Cluster) : (modCluster s i g).lmeta = s.lmeta := rfl
@[simp] theorem modCluster_cache (s : State) (i : Nat) (g : Cluster → Cluster) : (modCluster s i g).cache = s.cache := rfl
@[simp] theorem modCluster_cores (s : State) (i : Nat) (g : Cluster → Cluster) : (modCluster s i g).cores = s.cores := rfl
@[simp] theorem modCluster_chans (s : State) (i : Nat) (g : Cluster → Cluster) : (modCluster s i g).chans = s.chans := rfl
@[simp] theorem modCluster_granules (s : State) (i : Nat) (g : Cluster → Cluster) : (modCluster s i g).granules = s.granules := rfl
@[simp] theorem modCluster_slices (s : State) (i : Nat) (g : Cluster → Cluster) : (modCluster s i g).slices = s.slices := rfl
@[simp] theorem modCluster_parts (s : State) (i : Nat) (g : Cluster → Cluster) : (modCluster s i g).parts = s.parts := rfl
@[simp] theorem modCluster_links (s : State) (i : Nat) (g : Cluster → Cluster) : (modCluster s i g).links = s.links := rfl
@[simp] theorem modCluster_ports (s : State) (i : Nat) (g : Cluster → Cluster) : (modCluster s i g).ports = s.ports := rfl
@[simp] theorem modCluster_fab (s : State) (i : Nat) (g : Cluster → Cluster) : (modCluster s i g).fab = s.fab := rfl
@[simp] theorem modCluster_sur (s : State) (i : Nat) (g : Cluster → Cluster) : (modCluster s i g).sur = s.sur := rfl
@[simp] theorem modCluster_pwr (s : State) (i : Nat) (g : Cluster → Cluster) : (modCluster s i g).pwr = s.pwr := rfl
@[simp] theorem modCluster_trc (s : State) (i : Nat) (g : Cluster → Cluster) : (modCluster s i g).trc = s.trc := rfl
@[simp] theorem modCluster_modCnt (s : State) (i : Nat) (g : Cluster → Cluster) : (modCluster s i g).modCnt = s.modCnt := rfl
@[simp] theorem modCluster_evc (s : State) (i : Nat) (g : Cluster → Cluster) : (modCluster s i g).evc = s.evc := rfl
@[simp] theorem modCluster_evs (s : State) (i : Nat) (g : Cluster → Cluster) : (modCluster s i g).evs = s.evs := rfl
@[simp] theorem modCluster_err (s : State) (i : Nat) (g : Cluster → Cluster) : (modCluster s i g).err = s.err := rfl
@[simp] theorem modCluster_sec (s : State) (i : Nat) (g : Cluster → Cluster) : (modCluster s i g).sec = s.sec := rfl
@[simp] theorem modCluster_nv (s : State) (i : Nat) (g : Cluster → Cluster) : (modCluster s i g).nv = s.nv := rfl
@[simp] theorem modCluster_glb (s : State) (i : Nat) (g : Cluster → Cluster) : (modCluster s i g).glb = s.glb := rfl
@[simp] theorem modCluster_cq (s : State) (i : Nat) (g : Cluster → Cluster) : (modCluster s i g).cq = s.cq := rfl
@[simp] theorem modCluster_atl (s : State) (i : Nat) (g : Cluster → Cluster) : (modCluster s i g).atl = s.atl := rfl
@[simp] theorem modCluster_patrolH (s : State) (i : Nat) (g : Cluster → Cluster) : (modCluster s i g).patrolH = s.patrolH := rfl
@[simp] theorem modCluster_half (s : State) (i : Nat) (g : Cluster → Cluster) : (modCluster s i g).half = s.half := rfl
@[simp] theorem modCluster_hostOut (s : State) (i : Nat) (g : Cluster → Cluster) : (modCluster s i g).hostOut = s.hostOut := rfl
@[simp] theorem modCluster_hostIn (s : State) (i : Nat) (g : Cluster → Cluster) : (modCluster s i g).hostIn = s.hostIn := rfl
@[simp] theorem modCluster_retries (s : State) (i : Nat) (g : Cluster → Cluster) : (modCluster s i g).retries = s.retries := rfl
@[simp] theorem modCluster_msix (s : State) (i : Nat) (g : Cluster → Cluster) : (modCluster s i g).msix = s.msix := rfl
@[simp] theorem modCluster_reads (s : State) (i : Nat) (g : Cluster → Cluster) : (modCluster s i g).reads = s.reads := rfl
@[simp] theorem modCluster_answers (s : State) (i : Nat) (g : Cluster → Cluster) : (modCluster s i g).answers = s.answers := rfl
@[simp] theorem modCluster_resp (s : State) (i : Nat) (g : Cluster → Cluster) : (modCluster s i g).resp = s.resp := rfl
@[simp] theorem modCluster_draws (s : State) (i : Nat) (g : Cluster → Cluster) : (modCluster s i g).draws = s.draws := rfl
@[simp] theorem chanOf_modChan (s : State) (i : Nat) (g : Chan → Chan) (j : Nat) :
    chanOf (modChan s i g) j = if j = i then g (chanOf s i) else chanOf s j := tabGet_tabMod ..
@[simp] theorem chanOf_modChan_self (s : State) (i : Nat) (g : Chan → Chan) : chanOf (modChan s i g) i = g (chanOf s i) := by simp
@[simp] theorem coreOf_modChan (s : State) (i : Nat) (g : Chan → Chan) (j : Nat) : coreOf (modChan s i g) j = coreOf s j := rfl
@[simp] theorem clusterOf_modChan (s : State) (i : Nat) (g : Chan → Chan) (j : Nat) : clusterOf (modChan s i g) j = clusterOf s j := rfl
@[simp] theorem granuleOf_modChan (s : State) (i : Nat) (g : Chan → Chan) (j : Nat) : granuleOf (modChan s i g) j = granuleOf s j := rfl
@[simp] theorem partOf_modChan (s : State) (i : Nat) (g : Chan → Chan) (j : Nat) : partOf (modChan s i g) j = partOf s j := rfl
@[simp] theorem linkOf_modChan (s : State) (i : Nat) (g : Chan → Chan) (j : Nat) : linkOf (modChan s i g) j = linkOf s j := rfl
@[simp] theorem portOf_modChan (s : State) (i : Nat) (g : Chan → Chan) (j : Nat) : portOf (modChan s i g) j = portOf s j := rfl
@[simp] theorem traceOf_modChan (s : State) (i : Nat) (g : Chan → Chan) (j : Nat) : traceOf (modChan s i g) j = traceOf s j := rfl
@[simp] theorem sliceOf_modChan (s : State) (i : Nat) (g : Chan → Chan) (j : Nat) : sliceOf (modChan s i g) j = sliceOf s j := rfl
@[simp] theorem modChan_pending (s : State) (i : Nat) (g : Chan → Chan) : (modChan s i g).pending = s.pending := rfl
@[simp] theorem modChan_mem (s : State) (i : Nat) (g : Chan → Chan) : (modChan s i g).mem = s.mem := rfl
@[simp] theorem modChan_poison (s : State) (i : Nat) (g : Chan → Chan) : (modChan s i g).poison = s.poison := rfl
@[simp] theorem modChan_lmeta (s : State) (i : Nat) (g : Chan → Chan) : (modChan s i g).lmeta = s.lmeta := rfl
@[simp] theorem modChan_cache (s : State) (i : Nat) (g : Chan → Chan) : (modChan s i g).cache = s.cache := rfl
@[simp] theorem modChan_cores (s : State) (i : Nat) (g : Chan → Chan) : (modChan s i g).cores = s.cores := rfl
@[simp] theorem modChan_clusters (s : State) (i : Nat) (g : Chan → Chan) : (modChan s i g).clusters = s.clusters := rfl
@[simp] theorem modChan_granules (s : State) (i : Nat) (g : Chan → Chan) : (modChan s i g).granules = s.granules := rfl
@[simp] theorem modChan_slices (s : State) (i : Nat) (g : Chan → Chan) : (modChan s i g).slices = s.slices := rfl
@[simp] theorem modChan_parts (s : State) (i : Nat) (g : Chan → Chan) : (modChan s i g).parts = s.parts := rfl
@[simp] theorem modChan_links (s : State) (i : Nat) (g : Chan → Chan) : (modChan s i g).links = s.links := rfl
@[simp] theorem modChan_ports (s : State) (i : Nat) (g : Chan → Chan) : (modChan s i g).ports = s.ports := rfl
@[simp] theorem modChan_fab (s : State) (i : Nat) (g : Chan → Chan) : (modChan s i g).fab = s.fab := rfl
@[simp] theorem modChan_sur (s : State) (i : Nat) (g : Chan → Chan) : (modChan s i g).sur = s.sur := rfl
@[simp] theorem modChan_pwr (s : State) (i : Nat) (g : Chan → Chan) : (modChan s i g).pwr = s.pwr := rfl
@[simp] theorem modChan_trc (s : State) (i : Nat) (g : Chan → Chan) : (modChan s i g).trc = s.trc := rfl
@[simp] theorem modChan_modCnt (s : State) (i : Nat) (g : Chan → Chan) : (modChan s i g).modCnt = s.modCnt := rfl
@[simp] theorem modChan_evc (s : State) (i : Nat) (g : Chan → Chan) : (modChan s i g).evc = s.evc := rfl
@[simp] theorem modChan_evs (s : State) (i : Nat) (g : Chan → Chan) : (modChan s i g).evs = s.evs := rfl
@[simp] theorem modChan_err (s : State) (i : Nat) (g : Chan → Chan) : (modChan s i g).err = s.err := rfl
@[simp] theorem modChan_sec (s : State) (i : Nat) (g : Chan → Chan) : (modChan s i g).sec = s.sec := rfl
@[simp] theorem modChan_nv (s : State) (i : Nat) (g : Chan → Chan) : (modChan s i g).nv = s.nv := rfl
@[simp] theorem modChan_glb (s : State) (i : Nat) (g : Chan → Chan) : (modChan s i g).glb = s.glb := rfl
@[simp] theorem modChan_cq (s : State) (i : Nat) (g : Chan → Chan) : (modChan s i g).cq = s.cq := rfl
@[simp] theorem modChan_atl (s : State) (i : Nat) (g : Chan → Chan) : (modChan s i g).atl = s.atl := rfl
@[simp] theorem modChan_patrolH (s : State) (i : Nat) (g : Chan → Chan) : (modChan s i g).patrolH = s.patrolH := rfl
@[simp] theorem modChan_half (s : State) (i : Nat) (g : Chan → Chan) : (modChan s i g).half = s.half := rfl
@[simp] theorem modChan_hostOut (s : State) (i : Nat) (g : Chan → Chan) : (modChan s i g).hostOut = s.hostOut := rfl
@[simp] theorem modChan_hostIn (s : State) (i : Nat) (g : Chan → Chan) : (modChan s i g).hostIn = s.hostIn := rfl
@[simp] theorem modChan_retries (s : State) (i : Nat) (g : Chan → Chan) : (modChan s i g).retries = s.retries := rfl
@[simp] theorem modChan_msix (s : State) (i : Nat) (g : Chan → Chan) : (modChan s i g).msix = s.msix := rfl
@[simp] theorem modChan_reads (s : State) (i : Nat) (g : Chan → Chan) : (modChan s i g).reads = s.reads := rfl
@[simp] theorem modChan_answers (s : State) (i : Nat) (g : Chan → Chan) : (modChan s i g).answers = s.answers := rfl
@[simp] theorem modChan_resp (s : State) (i : Nat) (g : Chan → Chan) : (modChan s i g).resp = s.resp := rfl
@[simp] theorem modChan_draws (s : State) (i : Nat) (g : Chan → Chan) : (modChan s i g).draws = s.draws := rfl
@[simp] theorem granuleOf_modGranule (s : State) (i : Nat) (g : Granule → Granule) (j : Nat) :
    granuleOf (modGranule s i g) j = if j = i then g (granuleOf s i) else granuleOf s j := tabGet_tabMod ..
@[simp] theorem granuleOf_modGranule_self (s : State) (i : Nat) (g : Granule → Granule) : granuleOf (modGranule s i g) i = g (granuleOf s i) := by simp
@[simp] theorem coreOf_modGranule (s : State) (i : Nat) (g : Granule → Granule) (j : Nat) : coreOf (modGranule s i g) j = coreOf s j := rfl
@[simp] theorem clusterOf_modGranule (s : State) (i : Nat) (g : Granule → Granule) (j : Nat) : clusterOf (modGranule s i g) j = clusterOf s j := rfl
@[simp] theorem chanOf_modGranule (s : State) (i : Nat) (g : Granule → Granule) (j : Nat) : chanOf (modGranule s i g) j = chanOf s j := rfl
@[simp] theorem partOf_modGranule (s : State) (i : Nat) (g : Granule → Granule) (j : Nat) : partOf (modGranule s i g) j = partOf s j := rfl
@[simp] theorem linkOf_modGranule (s : State) (i : Nat) (g : Granule → Granule) (j : Nat) : linkOf (modGranule s i g) j = linkOf s j := rfl
@[simp] theorem portOf_modGranule (s : State) (i : Nat) (g : Granule → Granule) (j : Nat) : portOf (modGranule s i g) j = portOf s j := rfl
@[simp] theorem traceOf_modGranule (s : State) (i : Nat) (g : Granule → Granule) (j : Nat) : traceOf (modGranule s i g) j = traceOf s j := rfl
@[simp] theorem sliceOf_modGranule (s : State) (i : Nat) (g : Granule → Granule) (j : Nat) : sliceOf (modGranule s i g) j = sliceOf s j := rfl
@[simp] theorem modGranule_pending (s : State) (i : Nat) (g : Granule → Granule) : (modGranule s i g).pending = s.pending := rfl
@[simp] theorem modGranule_mem (s : State) (i : Nat) (g : Granule → Granule) : (modGranule s i g).mem = s.mem := rfl
@[simp] theorem modGranule_poison (s : State) (i : Nat) (g : Granule → Granule) : (modGranule s i g).poison = s.poison := rfl
@[simp] theorem modGranule_lmeta (s : State) (i : Nat) (g : Granule → Granule) : (modGranule s i g).lmeta = s.lmeta := rfl
@[simp] theorem modGranule_cache (s : State) (i : Nat) (g : Granule → Granule) : (modGranule s i g).cache = s.cache := rfl
@[simp] theorem modGranule_cores (s : State) (i : Nat) (g : Granule → Granule) : (modGranule s i g).cores = s.cores := rfl
@[simp] theorem modGranule_clusters (s : State) (i : Nat) (g : Granule → Granule) : (modGranule s i g).clusters = s.clusters := rfl
@[simp] theorem modGranule_chans (s : State) (i : Nat) (g : Granule → Granule) : (modGranule s i g).chans = s.chans := rfl
@[simp] theorem modGranule_slices (s : State) (i : Nat) (g : Granule → Granule) : (modGranule s i g).slices = s.slices := rfl
@[simp] theorem modGranule_parts (s : State) (i : Nat) (g : Granule → Granule) : (modGranule s i g).parts = s.parts := rfl
@[simp] theorem modGranule_links (s : State) (i : Nat) (g : Granule → Granule) : (modGranule s i g).links = s.links := rfl
@[simp] theorem modGranule_ports (s : State) (i : Nat) (g : Granule → Granule) : (modGranule s i g).ports = s.ports := rfl
@[simp] theorem modGranule_fab (s : State) (i : Nat) (g : Granule → Granule) : (modGranule s i g).fab = s.fab := rfl
@[simp] theorem modGranule_sur (s : State) (i : Nat) (g : Granule → Granule) : (modGranule s i g).sur = s.sur := rfl
@[simp] theorem modGranule_pwr (s : State) (i : Nat) (g : Granule → Granule) : (modGranule s i g).pwr = s.pwr := rfl
@[simp] theorem modGranule_trc (s : State) (i : Nat) (g : Granule → Granule) : (modGranule s i g).trc = s.trc := rfl
@[simp] theorem modGranule_modCnt (s : State) (i : Nat) (g : Granule → Granule) : (modGranule s i g).modCnt = s.modCnt := rfl
@[simp] theorem modGranule_evc (s : State) (i : Nat) (g : Granule → Granule) : (modGranule s i g).evc = s.evc := rfl
@[simp] theorem modGranule_evs (s : State) (i : Nat) (g : Granule → Granule) : (modGranule s i g).evs = s.evs := rfl
@[simp] theorem modGranule_err (s : State) (i : Nat) (g : Granule → Granule) : (modGranule s i g).err = s.err := rfl
@[simp] theorem modGranule_sec (s : State) (i : Nat) (g : Granule → Granule) : (modGranule s i g).sec = s.sec := rfl
@[simp] theorem modGranule_nv (s : State) (i : Nat) (g : Granule → Granule) : (modGranule s i g).nv = s.nv := rfl
@[simp] theorem modGranule_glb (s : State) (i : Nat) (g : Granule → Granule) : (modGranule s i g).glb = s.glb := rfl
@[simp] theorem modGranule_cq (s : State) (i : Nat) (g : Granule → Granule) : (modGranule s i g).cq = s.cq := rfl
@[simp] theorem modGranule_atl (s : State) (i : Nat) (g : Granule → Granule) : (modGranule s i g).atl = s.atl := rfl
@[simp] theorem modGranule_patrolH (s : State) (i : Nat) (g : Granule → Granule) : (modGranule s i g).patrolH = s.patrolH := rfl
@[simp] theorem modGranule_half (s : State) (i : Nat) (g : Granule → Granule) : (modGranule s i g).half = s.half := rfl
@[simp] theorem modGranule_hostOut (s : State) (i : Nat) (g : Granule → Granule) : (modGranule s i g).hostOut = s.hostOut := rfl
@[simp] theorem modGranule_hostIn (s : State) (i : Nat) (g : Granule → Granule) : (modGranule s i g).hostIn = s.hostIn := rfl
@[simp] theorem modGranule_retries (s : State) (i : Nat) (g : Granule → Granule) : (modGranule s i g).retries = s.retries := rfl
@[simp] theorem modGranule_msix (s : State) (i : Nat) (g : Granule → Granule) : (modGranule s i g).msix = s.msix := rfl
@[simp] theorem modGranule_reads (s : State) (i : Nat) (g : Granule → Granule) : (modGranule s i g).reads = s.reads := rfl
@[simp] theorem modGranule_answers (s : State) (i : Nat) (g : Granule → Granule) : (modGranule s i g).answers = s.answers := rfl
@[simp] theorem modGranule_resp (s : State) (i : Nat) (g : Granule → Granule) : (modGranule s i g).resp = s.resp := rfl
@[simp] theorem modGranule_draws (s : State) (i : Nat) (g : Granule → Granule) : (modGranule s i g).draws = s.draws := rfl
@[simp] theorem partOf_modPart (s : State) (i : Nat) (g : Part → Part) (j : Nat) :
    partOf (modPart s i g) j = if j = i then g (partOf s i) else partOf s j := tabGet_tabMod ..
@[simp] theorem partOf_modPart_self (s : State) (i : Nat) (g : Part → Part) : partOf (modPart s i g) i = g (partOf s i) := by simp
@[simp] theorem coreOf_modPart (s : State) (i : Nat) (g : Part → Part) (j : Nat) : coreOf (modPart s i g) j = coreOf s j := rfl
@[simp] theorem clusterOf_modPart (s : State) (i : Nat) (g : Part → Part) (j : Nat) : clusterOf (modPart s i g) j = clusterOf s j := rfl
@[simp] theorem chanOf_modPart (s : State) (i : Nat) (g : Part → Part) (j : Nat) : chanOf (modPart s i g) j = chanOf s j := rfl
@[simp] theorem granuleOf_modPart (s : State) (i : Nat) (g : Part → Part) (j : Nat) : granuleOf (modPart s i g) j = granuleOf s j := rfl
@[simp] theorem linkOf_modPart (s : State) (i : Nat) (g : Part → Part) (j : Nat) : linkOf (modPart s i g) j = linkOf s j := rfl
@[simp] theorem portOf_modPart (s : State) (i : Nat) (g : Part → Part) (j : Nat) : portOf (modPart s i g) j = portOf s j := rfl
@[simp] theorem traceOf_modPart (s : State) (i : Nat) (g : Part → Part) (j : Nat) : traceOf (modPart s i g) j = traceOf s j := rfl
@[simp] theorem sliceOf_modPart (s : State) (i : Nat) (g : Part → Part) (j : Nat) : sliceOf (modPart s i g) j = sliceOf s j := rfl
@[simp] theorem modPart_pending (s : State) (i : Nat) (g : Part → Part) : (modPart s i g).pending = s.pending := rfl
@[simp] theorem modPart_mem (s : State) (i : Nat) (g : Part → Part) : (modPart s i g).mem = s.mem := rfl
@[simp] theorem modPart_poison (s : State) (i : Nat) (g : Part → Part) : (modPart s i g).poison = s.poison := rfl
@[simp] theorem modPart_lmeta (s : State) (i : Nat) (g : Part → Part) : (modPart s i g).lmeta = s.lmeta := rfl
@[simp] theorem modPart_cache (s : State) (i : Nat) (g : Part → Part) : (modPart s i g).cache = s.cache := rfl
@[simp] theorem modPart_cores (s : State) (i : Nat) (g : Part → Part) : (modPart s i g).cores = s.cores := rfl
@[simp] theorem modPart_clusters (s : State) (i : Nat) (g : Part → Part) : (modPart s i g).clusters = s.clusters := rfl
@[simp] theorem modPart_chans (s : State) (i : Nat) (g : Part → Part) : (modPart s i g).chans = s.chans := rfl
@[simp] theorem modPart_granules (s : State) (i : Nat) (g : Part → Part) : (modPart s i g).granules = s.granules := rfl
@[simp] theorem modPart_slices (s : State) (i : Nat) (g : Part → Part) : (modPart s i g).slices = s.slices := rfl
@[simp] theorem modPart_links (s : State) (i : Nat) (g : Part → Part) : (modPart s i g).links = s.links := rfl
@[simp] theorem modPart_ports (s : State) (i : Nat) (g : Part → Part) : (modPart s i g).ports = s.ports := rfl
@[simp] theorem modPart_fab (s : State) (i : Nat) (g : Part → Part) : (modPart s i g).fab = s.fab := rfl
@[simp] theorem modPart_sur (s : State) (i : Nat) (g : Part → Part) : (modPart s i g).sur = s.sur := rfl
@[simp] theorem modPart_pwr (s : State) (i : Nat) (g : Part → Part) : (modPart s i g).pwr = s.pwr := rfl
@[simp] theorem modPart_trc (s : State) (i : Nat) (g : Part → Part) : (modPart s i g).trc = s.trc := rfl
@[simp] theorem modPart_modCnt (s : State) (i : Nat) (g : Part → Part) : (modPart s i g).modCnt = s.modCnt := rfl
@[simp] theorem modPart_evc (s : State) (i : Nat) (g : Part → Part) : (modPart s i g).evc = s.evc := rfl
@[simp] theorem modPart_evs (s : State) (i : Nat) (g : Part → Part) : (modPart s i g).evs = s.evs := rfl
@[simp] theorem modPart_err (s : State) (i : Nat) (g : Part → Part) : (modPart s i g).err = s.err := rfl
@[simp] theorem modPart_sec (s : State) (i : Nat) (g : Part → Part) : (modPart s i g).sec = s.sec := rfl
@[simp] theorem modPart_nv (s : State) (i : Nat) (g : Part → Part) : (modPart s i g).nv = s.nv := rfl
@[simp] theorem modPart_glb (s : State) (i : Nat) (g : Part → Part) : (modPart s i g).glb = s.glb := rfl
@[simp] theorem modPart_cq (s : State) (i : Nat) (g : Part → Part) : (modPart s i g).cq = s.cq := rfl
@[simp] theorem modPart_atl (s : State) (i : Nat) (g : Part → Part) : (modPart s i g).atl = s.atl := rfl
@[simp] theorem modPart_patrolH (s : State) (i : Nat) (g : Part → Part) : (modPart s i g).patrolH = s.patrolH := rfl
@[simp] theorem modPart_half (s : State) (i : Nat) (g : Part → Part) : (modPart s i g).half = s.half := rfl
@[simp] theorem modPart_hostOut (s : State) (i : Nat) (g : Part → Part) : (modPart s i g).hostOut = s.hostOut := rfl
@[simp] theorem modPart_hostIn (s : State) (i : Nat) (g : Part → Part) : (modPart s i g).hostIn = s.hostIn := rfl
@[simp] theorem modPart_retries (s : State) (i : Nat) (g : Part → Part) : (modPart s i g).retries = s.retries := rfl
@[simp] theorem modPart_msix (s : State) (i : Nat) (g : Part → Part) : (modPart s i g).msix = s.msix := rfl
@[simp] theorem modPart_reads (s : State) (i : Nat) (g : Part → Part) : (modPart s i g).reads = s.reads := rfl
@[simp] theorem modPart_answers (s : State) (i : Nat) (g : Part → Part) : (modPart s i g).answers = s.answers := rfl
@[simp] theorem modPart_resp (s : State) (i : Nat) (g : Part → Part) : (modPart s i g).resp = s.resp := rfl
@[simp] theorem modPart_draws (s : State) (i : Nat) (g : Part → Part) : (modPart s i g).draws = s.draws := rfl
@[simp] theorem linkOf_modLink (s : State) (i : Nat) (g : Link → Link) (j : Nat) :
    linkOf (modLink s i g) j = if j = i then g (linkOf s i) else linkOf s j := tabGet_tabMod ..
@[simp] theorem linkOf_modLink_self (s : State) (i : Nat) (g : Link → Link) : linkOf (modLink s i g) i = g (linkOf s i) := by simp
@[simp] theorem coreOf_modLink (s : State) (i : Nat) (g : Link → Link) (j : Nat) : coreOf (modLink s i g) j = coreOf s j := rfl
@[simp] theorem clusterOf_modLink (s : State) (i : Nat) (g : Link → Link) (j : Nat) : clusterOf (modLink s i g) j = clusterOf s j := rfl
@[simp] theorem chanOf_modLink (s : State) (i : Nat) (g : Link → Link) (j : Nat) : chanOf (modLink s i g) j = chanOf s j := rfl
@[simp] theorem granuleOf_modLink (s : State) (i : Nat) (g : Link → Link) (j : Nat) : granuleOf (modLink s i g) j = granuleOf s j := rfl
@[simp] theorem partOf_modLink (s : State) (i : Nat) (g : Link → Link) (j : Nat) : partOf (modLink s i g) j = partOf s j := rfl
@[simp] theorem portOf_modLink (s : State) (i : Nat) (g : Link → Link) (j : Nat) : portOf (modLink s i g) j = portOf s j := rfl
@[simp] theorem traceOf_modLink (s : State) (i : Nat) (g : Link → Link) (j : Nat) : traceOf (modLink s i g) j = traceOf s j := rfl
@[simp] theorem sliceOf_modLink (s : State) (i : Nat) (g : Link → Link) (j : Nat) : sliceOf (modLink s i g) j = sliceOf s j := rfl
@[simp] theorem modLink_pending (s : State) (i : Nat) (g : Link → Link) : (modLink s i g).pending = s.pending := rfl
@[simp] theorem modLink_mem (s : State) (i : Nat) (g : Link → Link) : (modLink s i g).mem = s.mem := rfl
@[simp] theorem modLink_poison (s : State) (i : Nat) (g : Link → Link) : (modLink s i g).poison = s.poison := rfl
@[simp] theorem modLink_lmeta (s : State) (i : Nat) (g : Link → Link) : (modLink s i g).lmeta = s.lmeta := rfl
@[simp] theorem modLink_cache (s : State) (i : Nat) (g : Link → Link) : (modLink s i g).cache = s.cache := rfl
@[simp] theorem modLink_cores (s : State) (i : Nat) (g : Link → Link) : (modLink s i g).cores = s.cores := rfl
@[simp] theorem modLink_clusters (s : State) (i : Nat) (g : Link → Link) : (modLink s i g).clusters = s.clusters := rfl
@[simp] theorem modLink_chans (s : State) (i : Nat) (g : Link → Link) : (modLink s i g).chans = s.chans := rfl
@[simp] theorem modLink_granules (s : State) (i : Nat) (g : Link → Link) : (modLink s i g).granules = s.granules := rfl
@[simp] theorem modLink_slices (s : State) (i : Nat) (g : Link → Link) : (modLink s i g).slices = s.slices := rfl
@[simp] theorem modLink_parts (s : State) (i : Nat) (g : Link → Link) : (modLink s i g).parts = s.parts := rfl
@[simp] theorem modLink_ports (s : State) (i : Nat) (g : Link → Link) : (modLink s i g).ports = s.ports := rfl
@[simp] theorem modLink_fab (s : State) (i : Nat) (g : Link → Link) : (modLink s i g).fab = s.fab := rfl
@[simp] theorem modLink_sur (s : State) (i : Nat) (g : Link → Link) : (modLink s i g).sur = s.sur := rfl
@[simp] theorem modLink_pwr (s : State) (i : Nat) (g : Link → Link) : (modLink s i g).pwr = s.pwr := rfl
@[simp] theorem modLink_trc (s : State) (i : Nat) (g : Link → Link) : (modLink s i g).trc = s.trc := rfl
@[simp] theorem modLink_modCnt (s : State) (i : Nat) (g : Link → Link) : (modLink s i g).modCnt = s.modCnt := rfl
@[simp] theorem modLink_evc (s : State) (i : Nat) (g : Link → Link) : (modLink s i g).evc = s.evc := rfl
@[simp] theorem modLink_evs (s : State) (i : Nat) (g : Link → Link) : (modLink s i g).evs = s.evs := rfl
@[simp] theorem modLink_err (s : State) (i : Nat) (g : Link → Link) : (modLink s i g).err = s.err := rfl
@[simp] theorem modLink_sec (s : State) (i : Nat) (g : Link → Link) : (modLink s i g).sec = s.sec := rfl
@[simp] theorem modLink_nv (s : State) (i : Nat) (g : Link → Link) : (modLink s i g).nv = s.nv := rfl
@[simp] theorem modLink_glb (s : State) (i : Nat) (g : Link → Link) : (modLink s i g).glb = s.glb := rfl
@[simp] theorem modLink_cq (s : State) (i : Nat) (g : Link → Link) : (modLink s i g).cq = s.cq := rfl
@[simp] theorem modLink_atl (s : State) (i : Nat) (g : Link → Link) : (modLink s i g).atl = s.atl := rfl
@[simp] theorem modLink_patrolH (s : State) (i : Nat) (g : Link → Link) : (modLink s i g).patrolH = s.patrolH := rfl
@[simp] theorem modLink_half (s : State) (i : Nat) (g : Link → Link) : (modLink s i g).half = s.half := rfl
@[simp] theorem modLink_hostOut (s : State) (i : Nat) (g : Link → Link) : (modLink s i g).hostOut = s.hostOut := rfl
@[simp] theorem modLink_hostIn (s : State) (i : Nat) (g : Link → Link) : (modLink s i g).hostIn = s.hostIn := rfl
@[simp] theorem modLink_retries (s : State) (i : Nat) (g : Link → Link) : (modLink s i g).retries = s.retries := rfl
@[simp] theorem modLink_msix (s : State) (i : Nat) (g : Link → Link) : (modLink s i g).msix = s.msix := rfl
@[simp] theorem modLink_reads (s : State) (i : Nat) (g : Link → Link) : (modLink s i g).reads = s.reads := rfl
@[simp] theorem modLink_answers (s : State) (i : Nat) (g : Link → Link) : (modLink s i g).answers = s.answers := rfl
@[simp] theorem modLink_resp (s : State) (i : Nat) (g : Link → Link) : (modLink s i g).resp = s.resp := rfl
@[simp] theorem modLink_draws (s : State) (i : Nat) (g : Link → Link) : (modLink s i g).draws = s.draws := rfl
@[simp] theorem portOf_modPort (s : State) (i : Nat) (g : Port → Port) (j : Nat) :
    portOf (modPort s i g) j = if j = i then g (portOf s i) else portOf s j := tabGet_tabMod ..
@[simp] theorem portOf_modPort_self (s : State) (i : Nat) (g : Port → Port) : portOf (modPort s i g) i = g (portOf s i) := by simp
@[simp] theorem coreOf_modPort (s : State) (i : Nat) (g : Port → Port) (j : Nat) : coreOf (modPort s i g) j = coreOf s j := rfl
@[simp] theorem clusterOf_modPort (s : State) (i : Nat) (g : Port → Port) (j : Nat) : clusterOf (modPort s i g) j = clusterOf s j := rfl
@[simp] theorem chanOf_modPort (s : State) (i : Nat) (g : Port → Port) (j : Nat) : chanOf (modPort s i g) j = chanOf s j := rfl
@[simp] theorem granuleOf_modPort (s : State) (i : Nat) (g : Port → Port) (j : Nat) : granuleOf (modPort s i g) j = granuleOf s j := rfl
@[simp] theorem partOf_modPort (s : State) (i : Nat) (g : Port → Port) (j : Nat) : partOf (modPort s i g) j = partOf s j := rfl
@[simp] theorem linkOf_modPort (s : State) (i : Nat) (g : Port → Port) (j : Nat) : linkOf (modPort s i g) j = linkOf s j := rfl
@[simp] theorem traceOf_modPort (s : State) (i : Nat) (g : Port → Port) (j : Nat) : traceOf (modPort s i g) j = traceOf s j := rfl
@[simp] theorem sliceOf_modPort (s : State) (i : Nat) (g : Port → Port) (j : Nat) : sliceOf (modPort s i g) j = sliceOf s j := rfl
@[simp] theorem modPort_pending (s : State) (i : Nat) (g : Port → Port) : (modPort s i g).pending = s.pending := rfl
@[simp] theorem modPort_mem (s : State) (i : Nat) (g : Port → Port) : (modPort s i g).mem = s.mem := rfl
@[simp] theorem modPort_poison (s : State) (i : Nat) (g : Port → Port) : (modPort s i g).poison = s.poison := rfl
@[simp] theorem modPort_lmeta (s : State) (i : Nat) (g : Port → Port) : (modPort s i g).lmeta = s.lmeta := rfl
@[simp] theorem modPort_cache (s : State) (i : Nat) (g : Port → Port) : (modPort s i g).cache = s.cache := rfl
@[simp] theorem modPort_cores (s : State) (i : Nat) (g : Port → Port) : (modPort s i g).cores = s.cores := rfl
@[simp] theorem modPort_clusters (s : State) (i : Nat) (g : Port → Port) : (modPort s i g).clusters = s.clusters := rfl
@[simp] theorem modPort_chans (s : State) (i : Nat) (g : Port → Port) : (modPort s i g).chans = s.chans := rfl
@[simp] theorem modPort_granules (s : State) (i : Nat) (g : Port → Port) : (modPort s i g).granules = s.granules := rfl
@[simp] theorem modPort_slices (s : State) (i : Nat) (g : Port → Port) : (modPort s i g).slices = s.slices := rfl
@[simp] theorem modPort_parts (s : State) (i : Nat) (g : Port → Port) : (modPort s i g).parts = s.parts := rfl
@[simp] theorem modPort_links (s : State) (i : Nat) (g : Port → Port) : (modPort s i g).links = s.links := rfl
@[simp] theorem modPort_fab (s : State) (i : Nat) (g : Port → Port) : (modPort s i g).fab = s.fab := rfl
@[simp] theorem modPort_sur (s : State) (i : Nat) (g : Port → Port) : (modPort s i g).sur = s.sur := rfl
@[simp] theorem modPort_pwr (s : State) (i : Nat) (g : Port → Port) : (modPort s i g).pwr = s.pwr := rfl
@[simp] theorem modPort_trc (s : State) (i : Nat) (g : Port → Port) : (modPort s i g).trc = s.trc := rfl
@[simp] theorem modPort_modCnt (s : State) (i : Nat) (g : Port → Port) : (modPort s i g).modCnt = s.modCnt := rfl
@[simp] theorem modPort_evc (s : State) (i : Nat) (g : Port → Port) : (modPort s i g).evc = s.evc := rfl
@[simp] theorem modPort_evs (s : State) (i : Nat) (g : Port → Port) : (modPort s i g).evs = s.evs := rfl
@[simp] theorem modPort_err (s : State) (i : Nat) (g : Port → Port) : (modPort s i g).err = s.err := rfl
@[simp] theorem modPort_sec (s : State) (i : Nat) (g : Port → Port) : (modPort s i g).sec = s.sec := rfl
@[simp] theorem modPort_nv (s : State) (i : Nat) (g : Port → Port) : (modPort s i g).nv = s.nv := rfl
@[simp] theorem modPort_glb (s : State) (i : Nat) (g : Port → Port) : (modPort s i g).glb = s.glb := rfl
@[simp] theorem modPort_cq (s : State) (i : Nat) (g : Port → Port) : (modPort s i g).cq = s.cq := rfl
@[simp] theorem modPort_atl (s : State) (i : Nat) (g : Port → Port) : (modPort s i g).atl = s.atl := rfl
@[simp] theorem modPort_patrolH (s : State) (i : Nat) (g : Port → Port) : (modPort s i g).patrolH = s.patrolH := rfl
@[simp] theorem modPort_half (s : State) (i : Nat) (g : Port → Port) : (modPort s i g).half = s.half := rfl
@[simp] theorem modPort_hostOut (s : State) (i : Nat) (g : Port → Port) : (modPort s i g).hostOut = s.hostOut := rfl
@[simp] theorem modPort_hostIn (s : State) (i : Nat) (g : Port → Port) : (modPort s i g).hostIn = s.hostIn := rfl
@[simp] theorem modPort_retries (s : State) (i : Nat) (g : Port → Port) : (modPort s i g).retries = s.retries := rfl
@[simp] theorem modPort_msix (s : State) (i : Nat) (g : Port → Port) : (modPort s i g).msix = s.msix := rfl
@[simp] theorem modPort_reads (s : State) (i : Nat) (g : Port → Port) : (modPort s i g).reads = s.reads := rfl
@[simp] theorem modPort_answers (s : State) (i : Nat) (g : Port → Port) : (modPort s i g).answers = s.answers := rfl
@[simp] theorem modPort_resp (s : State) (i : Nat) (g : Port → Port) : (modPort s i g).resp = s.resp := rfl
@[simp] theorem modPort_draws (s : State) (i : Nat) (g : Port → Port) : (modPort s i g).draws = s.draws := rfl
@[simp] theorem traceOf_modTrace (s : State) (i : Nat) (g : Trace → Trace) (j : Nat) :
    traceOf (modTrace s i g) j = if j = i then g (traceOf s i) else traceOf s j := tabGet_tabMod ..
@[simp] theorem traceOf_modTrace_self (s : State) (i : Nat) (g : Trace → Trace) : traceOf (modTrace s i g) i = g (traceOf s i) := by simp
@[simp] theorem coreOf_modTrace (s : State) (i : Nat) (g : Trace → Trace) (j : Nat) : coreOf (modTrace s i g) j = coreOf s j := rfl
@[simp] theorem clusterOf_modTrace (s : State) (i : Nat) (g : Trace → Trace) (j : Nat) : clusterOf (modTrace s i g) j = clusterOf s j := rfl
@[simp] theorem chanOf_modTrace (s : State) (i : Nat) (g : Trace → Trace) (j : Nat) : chanOf (modTrace s i g) j = chanOf s j := rfl
@[simp] theorem granuleOf_modTrace (s : State) (i : Nat) (g : Trace → Trace) (j : Nat) : granuleOf (modTrace s i g) j = granuleOf s j := rfl
@[simp] theorem partOf_modTrace (s : State) (i : Nat) (g : Trace → Trace) (j : Nat) : partOf (modTrace s i g) j = partOf s j := rfl
@[simp] theorem linkOf_modTrace (s : State) (i : Nat) (g : Trace → Trace) (j : Nat) : linkOf (modTrace s i g) j = linkOf s j := rfl
@[simp] theorem portOf_modTrace (s : State) (i : Nat) (g : Trace → Trace) (j : Nat) : portOf (modTrace s i g) j = portOf s j := rfl
@[simp] theorem sliceOf_modTrace (s : State) (i : Nat) (g : Trace → Trace) (j : Nat) : sliceOf (modTrace s i g) j = sliceOf s j := rfl
@[simp] theorem modTrace_pending (s : State) (i : Nat) (g : Trace → Trace) : (modTrace s i g).pending = s.pending := rfl
@[simp] theorem modTrace_mem (s : State) (i : Nat) (g : Trace → Trace) : (modTrace s i g).mem = s.mem := rfl
@[simp] theorem modTrace_poison (s : State) (i : Nat) (g : Trace → Trace) : (modTrace s i g).poison = s.poison := rfl
@[simp] theorem modTrace_lmeta (s : State) (i : Nat) (g : Trace → Trace) : (modTrace s i g).lmeta = s.lmeta := rfl
@[simp] theorem modTrace_cache (s : State) (i : Nat) (g : Trace → Trace) : (modTrace s i g).cache = s.cache := rfl
@[simp] theorem modTrace_cores (s : State) (i : Nat) (g : Trace → Trace) : (modTrace s i g).cores = s.cores := rfl
@[simp] theorem modTrace_clusters (s : State) (i : Nat) (g : Trace → Trace) : (modTrace s i g).clusters = s.clusters := rfl
@[simp] theorem modTrace_chans (s : State) (i : Nat) (g : Trace → Trace) : (modTrace s i g).chans = s.chans := rfl
@[simp] theorem modTrace_granules (s : State) (i : Nat) (g : Trace → Trace) : (modTrace s i g).granules = s.granules := rfl
@[simp] theorem modTrace_slices (s : State) (i : Nat) (g : Trace → Trace) : (modTrace s i g).slices = s.slices := rfl
@[simp] theorem modTrace_parts (s : State) (i : Nat) (g : Trace → Trace) : (modTrace s i g).parts = s.parts := rfl
@[simp] theorem modTrace_links (s : State) (i : Nat) (g : Trace → Trace) : (modTrace s i g).links = s.links := rfl
@[simp] theorem modTrace_ports (s : State) (i : Nat) (g : Trace → Trace) : (modTrace s i g).ports = s.ports := rfl
@[simp] theorem modTrace_fab (s : State) (i : Nat) (g : Trace → Trace) : (modTrace s i g).fab = s.fab := rfl
@[simp] theorem modTrace_sur (s : State) (i : Nat) (g : Trace → Trace) : (modTrace s i g).sur = s.sur := rfl
@[simp] theorem modTrace_pwr (s : State) (i : Nat) (g : Trace → Trace) : (modTrace s i g).pwr = s.pwr := rfl
@[simp] theorem modTrace_modCnt (s : State) (i : Nat) (g : Trace → Trace) : (modTrace s i g).modCnt = s.modCnt := rfl
@[simp] theorem modTrace_evc (s : State) (i : Nat) (g : Trace → Trace) : (modTrace s i g).evc = s.evc := rfl
@[simp] theorem modTrace_evs (s : State) (i : Nat) (g : Trace → Trace) : (modTrace s i g).evs = s.evs := rfl
@[simp] theorem modTrace_err (s : State) (i : Nat) (g : Trace → Trace) : (modTrace s i g).err = s.err := rfl
@[simp] theorem modTrace_sec (s : State) (i : Nat) (g : Trace → Trace) : (modTrace s i g).sec = s.sec := rfl
@[simp] theorem modTrace_nv (s : State) (i : Nat) (g : Trace → Trace) : (modTrace s i g).nv = s.nv := rfl
@[simp] theorem modTrace_glb (s : State) (i : Nat) (g : Trace → Trace) : (modTrace s i g).glb = s.glb := rfl
@[simp] theorem modTrace_cq (s : State) (i : Nat) (g : Trace → Trace) : (modTrace s i g).cq = s.cq := rfl
@[simp] theorem modTrace_atl (s : State) (i : Nat) (g : Trace → Trace) : (modTrace s i g).atl = s.atl := rfl
@[simp] theorem modTrace_patrolH (s : State) (i : Nat) (g : Trace → Trace) : (modTrace s i g).patrolH = s.patrolH := rfl
@[simp] theorem modTrace_half (s : State) (i : Nat) (g : Trace → Trace) : (modTrace s i g).half = s.half := rfl
@[simp] theorem modTrace_hostOut (s : State) (i : Nat) (g : Trace → Trace) : (modTrace s i g).hostOut = s.hostOut := rfl
@[simp] theorem modTrace_hostIn (s : State) (i : Nat) (g : Trace → Trace) : (modTrace s i g).hostIn = s.hostIn := rfl
@[simp] theorem modTrace_retries (s : State) (i : Nat) (g : Trace → Trace) : (modTrace s i g).retries = s.retries := rfl
@[simp] theorem modTrace_msix (s : State) (i : Nat) (g : Trace → Trace) : (modTrace s i g).msix = s.msix := rfl
@[simp] theorem modTrace_reads (s : State) (i : Nat) (g : Trace → Trace) : (modTrace s i g).reads = s.reads := rfl
@[simp] theorem modTrace_answers (s : State) (i : Nat) (g : Trace → Trace) : (modTrace s i g).answers = s.answers := rfl
@[simp] theorem modTrace_resp (s : State) (i : Nat) (g : Trace → Trace) : (modTrace s i g).resp = s.resp := rfl
@[simp] theorem modTrace_draws (s : State) (i : Nat) (g : Trace → Trace) : (modTrace s i g).draws = s.draws := rfl
@[simp] theorem hostBulk_pending (s : State) (f addr : Nat) (data : List Byte) : (hostBulk s f addr data).pending = s.pending := rfl
@[simp] theorem hostBulk_mem (s : State) (f addr : Nat) (data : List Byte) : (hostBulk s f addr data).mem = s.mem := rfl
@[simp] theorem hostBulk_poison (s : State) (f addr : Nat) (data : List Byte) : (hostBulk s f addr data).poison = s.poison := rfl
@[simp] theorem hostBulk_lmeta (s : State) (f addr : Nat) (data : List Byte) : (hostBulk s f addr data).lmeta = s.lmeta := rfl
@[simp] theorem hostBulk_cache (s : State) (f addr : Nat) (data : List Byte) : (hostBulk s f addr data).cache = s.cache := rfl
@[simp] theorem hostBulk_cores (s : State) (f addr : Nat) (data : List Byte) : (hostBulk s f addr data).cores = s.cores := rfl
@[simp] theorem hostBulk_clusters (s : State) (f addr : Nat) (data : List Byte) : (hostBulk s f addr data).clusters = s.clusters := rfl
@[simp] theorem hostBulk_chans (s : State) (f addr : Nat) (data : List Byte) : (hostBulk s f addr data).chans = s.chans := rfl
@[simp] theorem hostBulk_granules (s : State) (f addr : Nat) (data : List Byte) : (hostBulk s f addr data).granules = s.granules := rfl
@[simp] theorem hostBulk_slices (s : State) (f addr : Nat) (data : List Byte) : (hostBulk s f addr data).slices = s.slices := rfl
@[simp] theorem hostBulk_parts (s : State) (f addr : Nat) (data : List Byte) : (hostBulk s f addr data).parts = s.parts := rfl
@[simp] theorem hostBulk_links (s : State) (f addr : Nat) (data : List Byte) : (hostBulk s f addr data).links = s.links := rfl
@[simp] theorem hostBulk_ports (s : State) (f addr : Nat) (data : List Byte) : (hostBulk s f addr data).ports = s.ports := rfl
@[simp] theorem hostBulk_fab (s : State) (f addr : Nat) (data : List Byte) : (hostBulk s f addr data).fab = s.fab := rfl
@[simp] theorem hostBulk_sur (s : State) (f addr : Nat) (data : List Byte) : (hostBulk s f addr data).sur = s.sur := rfl
@[simp] theorem hostBulk_pwr (s : State) (f addr : Nat) (data : List Byte) : (hostBulk s f addr data).pwr = s.pwr := rfl
@[simp] theorem hostBulk_trc (s : State) (f addr : Nat) (data : List Byte) : (hostBulk s f addr data).trc = s.trc := rfl
@[simp] theorem hostBulk_modCnt (s : State) (f addr : Nat) (data : List Byte) : (hostBulk s f addr data).modCnt = s.modCnt := rfl
@[simp] theorem hostBulk_evc (s : State) (f addr : Nat) (data : List Byte) : (hostBulk s f addr data).evc = s.evc := rfl
@[simp] theorem hostBulk_evs (s : State) (f addr : Nat) (data : List Byte) : (hostBulk s f addr data).evs = s.evs := rfl
@[simp] theorem hostBulk_err (s : State) (f addr : Nat) (data : List Byte) : (hostBulk s f addr data).err = s.err := rfl
@[simp] theorem hostBulk_sec (s : State) (f addr : Nat) (data : List Byte) : (hostBulk s f addr data).sec = s.sec := rfl
@[simp] theorem hostBulk_nv (s : State) (f addr : Nat) (data : List Byte) : (hostBulk s f addr data).nv = s.nv := rfl
@[simp] theorem hostBulk_glb (s : State) (f addr : Nat) (data : List Byte) : (hostBulk s f addr data).glb = s.glb := rfl
@[simp] theorem hostBulk_cq (s : State) (f addr : Nat) (data : List Byte) : (hostBulk s f addr data).cq = s.cq := rfl
@[simp] theorem hostBulk_atl (s : State) (f addr : Nat) (data : List Byte) : (hostBulk s f addr data).atl = s.atl := rfl
@[simp] theorem hostBulk_patrolH (s : State) (f addr : Nat) (data : List Byte) : (hostBulk s f addr data).patrolH = s.patrolH := rfl
@[simp] theorem hostBulk_half (s : State) (f addr : Nat) (data : List Byte) : (hostBulk s f addr data).half = s.half := rfl
@[simp] theorem hostBulk_hostIn (s : State) (f addr : Nat) (data : List Byte) : (hostBulk s f addr data).hostIn = s.hostIn := rfl
@[simp] theorem hostBulk_retries (s : State) (f addr : Nat) (data : List Byte) : (hostBulk s f addr data).retries = s.retries := rfl
@[simp] theorem hostBulk_msix (s : State) (f addr : Nat) (data : List Byte) : (hostBulk s f addr data).msix = s.msix := rfl
@[simp] theorem hostBulk_reads (s : State) (f addr : Nat) (data : List Byte) : (hostBulk s f addr data).reads = s.reads := rfl
@[simp] theorem hostBulk_answers (s : State) (f addr : Nat) (data : List Byte) : (hostBulk s f addr data).answers = s.answers := rfl
@[simp] theorem hostBulk_resp (s : State) (f addr : Nat) (data : List Byte) : (hostBulk s f addr data).resp = s.resp := rfl
@[simp] theorem hostBulk_draws (s : State) (f addr : Nat) (data : List Byte) : (hostBulk s f addr data).draws = s.draws := rfl
@[simp] theorem coreOf_hostBulk (s : State) (f addr : Nat) (data : List Byte) (j : Nat) : coreOf (hostBulk s f addr data) j = coreOf s j := rfl
@[simp] theorem clusterOf_hostBulk (s : State) (f addr : Nat) (data : List Byte) (j : Nat) : clusterOf (hostBulk s f addr data) j = clusterOf s j := rfl
@[simp] theorem chanOf_hostBulk (s : State) (f addr : Nat) (data : List Byte) (j : Nat) : chanOf (hostBulk s f addr data) j = chanOf s j := rfl
@[simp] theorem granuleOf_hostBulk (s : State) (f addr : Nat) (data : List Byte) (j : Nat) : granuleOf (hostBulk s f addr data) j = granuleOf s j := rfl
@[simp] theorem partOf_hostBulk (s : State) (f addr : Nat) (data : List Byte) (j : Nat) : partOf (hostBulk s f addr data) j = partOf s j := rfl
@[simp] theorem linkOf_hostBulk (s : State) (f addr : Nat) (data : List Byte) (j : Nat) : linkOf (hostBulk s f addr data) j = linkOf s j := rfl
@[simp] theorem portOf_hostBulk (s : State) (f addr : Nat) (data : List Byte) (j : Nat) : portOf (hostBulk s f addr data) j = portOf s j := rfl
@[simp] theorem traceOf_hostBulk (s : State) (f addr : Nat) (data : List Byte) (j : Nat) : traceOf (hostBulk s f addr data) j = traceOf s j := rfl
@[simp] theorem raiseMsix_pending (s : State) (f entry : Nat) : (raiseMsix s f entry).pending = s.pending := rfl
@[simp] theorem raiseMsix_mem (s : State) (f entry : Nat) : (raiseMsix s f entry).mem = s.mem := rfl
@[simp] theorem raiseMsix_poison (s : State) (f entry : Nat) : (raiseMsix s f entry).poison = s.poison := rfl
@[simp] theorem raiseMsix_lmeta (s : State) (f entry : Nat) : (raiseMsix s f entry).lmeta = s.lmeta := rfl
@[simp] theorem raiseMsix_cache (s : State) (f entry : Nat) : (raiseMsix s f entry).cache = s.cache := rfl
@[simp] theorem raiseMsix_cores (s : State) (f entry : Nat) : (raiseMsix s f entry).cores = s.cores := rfl
@[simp] theorem raiseMsix_clusters (s : State) (f entry : Nat) : (raiseMsix s f entry).clusters = s.clusters := rfl
@[simp] theorem raiseMsix_chans (s : State) (f entry : Nat) : (raiseMsix s f entry).chans = s.chans := rfl
@[simp] theorem raiseMsix_granules (s : State) (f entry : Nat) : (raiseMsix s f entry).granules = s.granules := rfl
@[simp] theorem raiseMsix_slices (s : State) (f entry : Nat) : (raiseMsix s f entry).slices = s.slices := rfl
@[simp] theorem raiseMsix_parts (s : State) (f entry : Nat) : (raiseMsix s f entry).parts = s.parts := rfl
@[simp] theorem raiseMsix_links (s : State) (f entry : Nat) : (raiseMsix s f entry).links = s.links := rfl
@[simp] theorem raiseMsix_ports (s : State) (f entry : Nat) : (raiseMsix s f entry).ports = s.ports := rfl
@[simp] theorem raiseMsix_fab (s : State) (f entry : Nat) : (raiseMsix s f entry).fab = s.fab := rfl
@[simp] theorem raiseMsix_sur (s : State) (f entry : Nat) : (raiseMsix s f entry).sur = s.sur := rfl
@[simp] theorem raiseMsix_pwr (s : State) (f entry : Nat) : (raiseMsix s f entry).pwr = s.pwr := rfl
@[simp] theorem raiseMsix_trc (s : State) (f entry : Nat) : (raiseMsix s f entry).trc = s.trc := rfl
@[simp] theorem raiseMsix_modCnt (s : State) (f entry : Nat) : (raiseMsix s f entry).modCnt = s.modCnt := rfl
@[simp] theorem raiseMsix_evc (s : State) (f entry : Nat) : (raiseMsix s f entry).evc = s.evc := rfl
@[simp] theorem raiseMsix_evs (s : State) (f entry : Nat) : (raiseMsix s f entry).evs = s.evs := rfl
@[simp] theorem raiseMsix_err (s : State) (f entry : Nat) : (raiseMsix s f entry).err = s.err := rfl
@[simp] theorem raiseMsix_sec (s : State) (f entry : Nat) : (raiseMsix s f entry).sec = s.sec := rfl
@[simp] theorem raiseMsix_nv (s : State) (f entry : Nat) : (raiseMsix s f entry).nv = s.nv := rfl
@[simp] theorem raiseMsix_glb (s : State) (f entry : Nat) : (raiseMsix s f entry).glb = s.glb := rfl
@[simp] theorem raiseMsix_cq (s : State) (f entry : Nat) : (raiseMsix s f entry).cq = s.cq := rfl
@[simp] theorem raiseMsix_atl (s : State) (f entry : Nat) : (raiseMsix s f entry).atl = s.atl := rfl
@[simp] theorem raiseMsix_patrolH (s : State) (f entry : Nat) : (raiseMsix s f entry).patrolH = s.patrolH := rfl
@[simp] theorem raiseMsix_half (s : State) (f entry : Nat) : (raiseMsix s f entry).half = s.half := rfl
@[simp] theorem raiseMsix_hostOut (s : State) (f entry : Nat) : (raiseMsix s f entry).hostOut = s.hostOut := rfl
@[simp] theorem raiseMsix_hostIn (s : State) (f entry : Nat) : (raiseMsix s f entry).hostIn = s.hostIn := rfl
@[simp] theorem raiseMsix_retries (s : State) (f entry : Nat) : (raiseMsix s f entry).retries = s.retries := rfl
@[simp] theorem raiseMsix_reads (s : State) (f entry : Nat) : (raiseMsix s f entry).reads = s.reads := rfl
@[simp] theorem raiseMsix_answers (s : State) (f entry : Nat) : (raiseMsix s f entry).answers = s.answers := rfl
@[simp] theorem raiseMsix_resp (s : State) (f entry : Nat) : (raiseMsix s f entry).resp = s.resp := rfl
@[simp] theorem raiseMsix_draws (s : State) (f entry : Nat) : (raiseMsix s f entry).draws = s.draws := rfl
@[simp] theorem coreOf_raiseMsix (s : State) (f entry : Nat) (j : Nat) : coreOf (raiseMsix s f entry) j = coreOf s j := rfl
@[simp] theorem clusterOf_raiseMsix (s : State) (f entry : Nat) (j : Nat) : clusterOf (raiseMsix s f entry) j = clusterOf s j := rfl
@[simp] theorem chanOf_raiseMsix (s : State) (f entry : Nat) (j : Nat) : chanOf (raiseMsix s f entry) j = chanOf s j := rfl
@[simp] theorem granuleOf_raiseMsix (s : State) (f entry : Nat) (j : Nat) : granuleOf (raiseMsix s f entry) j = granuleOf s j := rfl
@[simp] theorem partOf_raiseMsix (s : State) (f entry : Nat) (j : Nat) : partOf (raiseMsix s f entry) j = partOf s j := rfl
@[simp] theorem linkOf_raiseMsix (s : State) (f entry : Nat) (j : Nat) : linkOf (raiseMsix s f entry) j = linkOf s j := rfl
@[simp] theorem portOf_raiseMsix (s : State) (f entry : Nat) (j : Nat) : portOf (raiseMsix s f entry) j = portOf s j := rfl
@[simp] theorem traceOf_raiseMsix (s : State) (f entry : Nat) (j : Nat) : traceOf (raiseMsix s f entry) j = traceOf s j := rfl
@[simp] theorem sendPacket_pending (s : State) (p : Packet) : (sendPacket s p).pending = s.pending := rfl
@[simp] theorem sendPacket_mem (s : State) (p : Packet) : (sendPacket s p).mem = s.mem := rfl
@[simp] theorem sendPacket_poison (s : State) (p : Packet) : (sendPacket s p).poison = s.poison := rfl
@[simp] theorem sendPacket_lmeta (s : State) (p : Packet) : (sendPacket s p).lmeta = s.lmeta := rfl
@[simp] theorem sendPacket_cache (s : State) (p : Packet) : (sendPacket s p).cache = s.cache := rfl
@[simp] theorem sendPacket_cores (s : State) (p : Packet) : (sendPacket s p).cores = s.cores := rfl
@[simp] theorem sendPacket_clusters (s : State) (p : Packet) : (sendPacket s p).clusters = s.clusters := rfl
@[simp] theorem sendPacket_chans (s : State) (p : Packet) : (sendPacket s p).chans = s.chans := rfl
@[simp] theorem sendPacket_granules (s : State) (p : Packet) : (sendPacket s p).granules = s.granules := rfl
@[simp] theorem sendPacket_slices (s : State) (p : Packet) : (sendPacket s p).slices = s.slices := rfl
@[simp] theorem sendPacket_parts (s : State) (p : Packet) : (sendPacket s p).parts = s.parts := rfl
@[simp] theorem sendPacket_links (s : State) (p : Packet) : (sendPacket s p).links = s.links := rfl
@[simp] theorem sendPacket_ports (s : State) (p : Packet) : (sendPacket s p).ports = s.ports := rfl
@[simp] theorem sendPacket_sur (s : State) (p : Packet) : (sendPacket s p).sur = s.sur := rfl
@[simp] theorem sendPacket_pwr (s : State) (p : Packet) : (sendPacket s p).pwr = s.pwr := rfl
@[simp] theorem sendPacket_trc (s : State) (p : Packet) : (sendPacket s p).trc = s.trc := rfl
@[simp] theorem sendPacket_modCnt (s : State) (p : Packet) : (sendPacket s p).modCnt = s.modCnt := rfl
@[simp] theorem sendPacket_evc (s : State) (p : Packet) : (sendPacket s p).evc = s.evc := rfl
@[simp] theorem sendPacket_evs (s : State) (p : Packet) : (sendPacket s p).evs = s.evs := rfl
@[simp] theorem sendPacket_err (s : State) (p : Packet) : (sendPacket s p).err = s.err := rfl
@[simp] theorem sendPacket_sec (s : State) (p : Packet) : (sendPacket s p).sec = s.sec := rfl
@[simp] theorem sendPacket_nv (s : State) (p : Packet) : (sendPacket s p).nv = s.nv := rfl
@[simp] theorem sendPacket_glb (s : State) (p : Packet) : (sendPacket s p).glb = s.glb := rfl
@[simp] theorem sendPacket_cq (s : State) (p : Packet) : (sendPacket s p).cq = s.cq := rfl
@[simp] theorem sendPacket_atl (s : State) (p : Packet) : (sendPacket s p).atl = s.atl := rfl
@[simp] theorem sendPacket_patrolH (s : State) (p : Packet) : (sendPacket s p).patrolH = s.patrolH := rfl
@[simp] theorem sendPacket_half (s : State) (p : Packet) : (sendPacket s p).half = s.half := rfl
@[simp] theorem sendPacket_hostOut (s : State) (p : Packet) : (sendPacket s p).hostOut = s.hostOut := rfl
@[simp] theorem sendPacket_hostIn (s : State) (p : Packet) : (sendPacket s p).hostIn = s.hostIn := rfl
@[simp] theorem sendPacket_retries (s : State) (p : Packet) : (sendPacket s p).retries = s.retries := rfl
@[simp] theorem sendPacket_msix (s : State) (p : Packet) : (sendPacket s p).msix = s.msix := rfl
@[simp] theorem sendPacket_reads (s : State) (p : Packet) : (sendPacket s p).reads = s.reads := rfl
@[simp] theorem sendPacket_answers (s : State) (p : Packet) : (sendPacket s p).answers = s.answers := rfl
@[simp] theorem sendPacket_resp (s : State) (p : Packet) : (sendPacket s p).resp = s.resp := rfl
@[simp] theorem sendPacket_draws (s : State) (p : Packet) : (sendPacket s p).draws = s.draws := rfl
@[simp] theorem coreOf_sendPacket (s : State) (p : Packet) (j : Nat) : coreOf (sendPacket s p) j = coreOf s j := rfl
@[simp] theorem clusterOf_sendPacket (s : State) (p : Packet) (j : Nat) : clusterOf (sendPacket s p) j = clusterOf s j := rfl
@[simp] theorem chanOf_sendPacket (s : State) (p : Packet) (j : Nat) : chanOf (sendPacket s p) j = chanOf s j := rfl
@[simp] theorem granuleOf_sendPacket (s : State) (p : Packet) (j : Nat) : granuleOf (sendPacket s p) j = granuleOf s j := rfl
@[simp] theorem partOf_sendPacket (s : State) (p : Packet) (j : Nat) : partOf (sendPacket s p) j = partOf s j := rfl
@[simp] theorem linkOf_sendPacket (s : State) (p : Packet) (j : Nat) : linkOf (sendPacket s p) j = linkOf s j := rfl
@[simp] theorem portOf_sendPacket (s : State) (p : Packet) (j : Nat) : portOf (sendPacket s p) j = portOf s j := rfl
@[simp] theorem traceOf_sendPacket (s : State) (p : Packet) (j : Nat) : traceOf (sendPacket s p) j = traceOf s j := rfl
@[simp] theorem answerReq_pending (s : State) (u t : Nat) (r : Resp) (data : List Byte) : (answerReq s u t r data).pending = s.pending := rfl
@[simp] theorem answerReq_mem (s : State) (u t : Nat) (r : Resp) (data : List Byte) : (answerReq s u t r data).mem = s.mem := rfl
@[simp] theorem answerReq_poison (s : State) (u t : Nat) (r : Resp) (data : List Byte) : (answerReq s u t r data).poison = s.poison := rfl
@[simp] theorem answerReq_lmeta (s : State) (u t : Nat) (r : Resp) (data : List Byte) : (answerReq s u t r data).lmeta = s.lmeta := rfl
@[simp] theorem answerReq_cache (s : State) (u t : Nat) (r : Resp) (data : List Byte) : (answerReq s u t r data).cache = s.cache := rfl
@[simp] theorem answerReq_cores (s : State) (u t : Nat) (r : Resp) (data : List Byte) : (answerReq s u t r data).cores = s.cores := rfl
@[simp] theorem answerReq_clusters (s : State) (u t : Nat) (r : Resp) (data : List Byte) : (answerReq s u t r data).clusters = s.clusters := rfl
@[simp] theorem answerReq_chans (s : State) (u t : Nat) (r : Resp) (data : List Byte) : (answerReq s u t r data).chans = s.chans := rfl
@[simp] theorem answerReq_granules (s : State) (u t : Nat) (r : Resp) (data : List Byte) : (answerReq s u t r data).granules = s.granules := rfl
@[simp] theorem answerReq_slices (s : State) (u t : Nat) (r : Resp) (data : List Byte) : (answerReq s u t r data).slices = s.slices := rfl
@[simp] theorem answerReq_parts (s : State) (u t : Nat) (r : Resp) (data : List Byte) : (answerReq s u t r data).parts = s.parts := rfl
@[simp] theorem answerReq_links (s : State) (u t : Nat) (r : Resp) (data : List Byte) : (answerReq s u t r data).links = s.links := rfl
@[simp] theorem answerReq_ports (s : State) (u t : Nat) (r : Resp) (data : List Byte) : (answerReq s u t r data).ports = s.ports := rfl
@[simp] theorem answerReq_fab (s : State) (u t : Nat) (r : Resp) (data : List Byte) : (answerReq s u t r data).fab = s.fab := rfl
@[simp] theorem answerReq_sur (s : State) (u t : Nat) (r : Resp) (data : List Byte) : (answerReq s u t r data).sur = s.sur := rfl
@[simp] theorem answerReq_pwr (s : State) (u t : Nat) (r : Resp) (data : List Byte) : (answerReq s u t r data).pwr = s.pwr := rfl
@[simp] theorem answerReq_trc (s : State) (u t : Nat) (r : Resp) (data : List Byte) : (answerReq s u t r data).trc = s.trc := rfl
@[simp] theorem answerReq_modCnt (s : State) (u t : Nat) (r : Resp) (data : List Byte) : (answerReq s u t r data).modCnt = s.modCnt := rfl
@[simp] theorem answerReq_evc (s : State) (u t : Nat) (r : Resp) (data : List Byte) : (answerReq s u t r data).evc = s.evc := rfl
@[simp] theorem answerReq_evs (s : State) (u t : Nat) (r : Resp) (data : List Byte) : (answerReq s u t r data).evs = s.evs := rfl
@[simp] theorem answerReq_err (s : State) (u t : Nat) (r : Resp) (data : List Byte) : (answerReq s u t r data).err = s.err := rfl
@[simp] theorem answerReq_sec (s : State) (u t : Nat) (r : Resp) (data : List Byte) : (answerReq s u t r data).sec = s.sec := rfl
@[simp] theorem answerReq_nv (s : State) (u t : Nat) (r : Resp) (data : List Byte) : (answerReq s u t r data).nv = s.nv := rfl
@[simp] theorem answerReq_glb (s : State) (u t : Nat) (r : Resp) (data : List Byte) : (answerReq s u t r data).glb = s.glb := rfl
@[simp] theorem answerReq_cq (s : State) (u t : Nat) (r : Resp) (data : List Byte) : (answerReq s u t r data).cq = s.cq := rfl
@[simp] theorem answerReq_atl (s : State) (u t : Nat) (r : Resp) (data : List Byte) : (answerReq s u t r data).atl = s.atl := rfl
@[simp] theorem answerReq_patrolH (s : State) (u t : Nat) (r : Resp) (data : List Byte) : (answerReq s u t r data).patrolH = s.patrolH := rfl
@[simp] theorem answerReq_half (s : State) (u t : Nat) (r : Resp) (data : List Byte) : (answerReq s u t r data).half = s.half := rfl
@[simp] theorem answerReq_hostOut (s : State) (u t : Nat) (r : Resp) (data : List Byte) : (answerReq s u t r data).hostOut = s.hostOut := rfl
@[simp] theorem answerReq_hostIn (s : State) (u t : Nat) (r : Resp) (data : List Byte) : (answerReq s u t r data).hostIn = s.hostIn := rfl
@[simp] theorem answerReq_retries (s : State) (u t : Nat) (r : Resp) (data : List Byte) : (answerReq s u t r data).retries = s.retries := rfl
@[simp] theorem answerReq_msix (s : State) (u t : Nat) (r : Resp) (data : List Byte) : (answerReq s u t r data).msix = s.msix := rfl
@[simp] theorem answerReq_reads (s : State) (u t : Nat) (r : Resp) (data : List Byte) : (answerReq s u t r data).reads = s.reads := rfl
@[simp] theorem answerReq_answers (s : State) (u t : Nat) (r : Resp) (data : List Byte) : (answerReq s u t r data).answers = s.answers := rfl
@[simp] theorem answerReq_draws (s : State) (u t : Nat) (r : Resp) (data : List Byte) : (answerReq s u t r data).draws = s.draws := rfl
@[simp] theorem coreOf_answerReq (s : State) (u t : Nat) (r : Resp) (data : List Byte) (j : Nat) : coreOf (answerReq s u t r data) j = coreOf s j := rfl
@[simp] theorem clusterOf_answerReq (s : State) (u t : Nat) (r : Resp) (data : List Byte) (j : Nat) : clusterOf (answerReq s u t r data) j = clusterOf s j := rfl
@[simp] theorem chanOf_answerReq (s : State) (u t : Nat) (r : Resp) (data : List Byte) (j : Nat) : chanOf (answerReq s u t r data) j = chanOf s j := rfl
@[simp] theorem granuleOf_answerReq (s : State) (u t : Nat) (r : Resp) (data : List Byte) (j : Nat) : granuleOf (answerReq s u t r data) j = granuleOf s j := rfl
@[simp] theorem partOf_answerReq (s : State) (u t : Nat) (r : Resp) (data : List Byte) (j : Nat) : partOf (answerReq s u t r data) j = partOf s j := rfl
@[simp] theorem linkOf_answerReq (s : State) (u t : Nat) (r : Resp) (data : List Byte) (j : Nat) : linkOf (answerReq s u t r data) j = linkOf s j := rfl
@[simp] theorem portOf_answerReq (s : State) (u t : Nat) (r : Resp) (data : List Byte) (j : Nat) : portOf (answerReq s u t r data) j = portOf s j := rfl
@[simp] theorem traceOf_answerReq (s : State) (u t : Nat) (r : Resp) (data : List Byte) (j : Nat) : traceOf (answerReq s u t r data) j = traceOf s j := rfl
@[simp] theorem answerMgmt_pending (s : State) (q : Nat) (ok : Bool) (w : List W64) : (answerMgmt s q ok w).pending = s.pending := rfl
@[simp] theorem answerMgmt_mem (s : State) (q : Nat) (ok : Bool) (w : List W64) : (answerMgmt s q ok w).mem = s.mem := rfl
@[simp] theorem answerMgmt_poison (s : State) (q : Nat) (ok : Bool) (w : List W64) : (answerMgmt s q ok w).poison = s.poison := rfl
@[simp] theorem answerMgmt_lmeta (s : State) (q : Nat) (ok : Bool) (w : List W64) : (answerMgmt s q ok w).lmeta = s.lmeta := rfl
@[simp] theorem answerMgmt_cache (s : State) (q : Nat) (ok : Bool) (w : List W64) : (answerMgmt s q ok w).cache = s.cache := rfl
@[simp] theorem answerMgmt_cores (s : State) (q : Nat) (ok : Bool) (w : List W64) : (answerMgmt s q ok w).cores = s.cores := rfl
@[simp] theorem answerMgmt_clusters (s : State) (q : Nat) (ok : Bool) (w : List W64) : (answerMgmt s q ok w).clusters = s.clusters := rfl
@[simp] theorem answerMgmt_chans (s : State) (q : Nat) (ok : Bool) (w : List W64) : (answerMgmt s q ok w).chans = s.chans := rfl
@[simp] theorem answerMgmt_granules (s : State) (q : Nat) (ok : Bool) (w : List W64) : (answerMgmt s q ok w).granules = s.granules := rfl
@[simp] theorem answerMgmt_slices (s : State) (q : Nat) (ok : Bool) (w : List W64) : (answerMgmt s q ok w).slices = s.slices := rfl
@[simp] theorem answerMgmt_parts (s : State) (q : Nat) (ok : Bool) (w : List W64) : (answerMgmt s q ok w).parts = s.parts := rfl
@[simp] theorem answerMgmt_links (s : State) (q : Nat) (ok : Bool) (w : List W64) : (answerMgmt s q ok w).links = s.links := rfl
@[simp] theorem answerMgmt_ports (s : State) (q : Nat) (ok : Bool) (w : List W64) : (answerMgmt s q ok w).ports = s.ports := rfl
@[simp] theorem answerMgmt_fab (s : State) (q : Nat) (ok : Bool) (w : List W64) : (answerMgmt s q ok w).fab = s.fab := rfl
@[simp] theorem answerMgmt_sur (s : State) (q : Nat) (ok : Bool) (w : List W64) : (answerMgmt s q ok w).sur = s.sur := rfl
@[simp] theorem answerMgmt_pwr (s : State) (q : Nat) (ok : Bool) (w : List W64) : (answerMgmt s q ok w).pwr = s.pwr := rfl
@[simp] theorem answerMgmt_trc (s : State) (q : Nat) (ok : Bool) (w : List W64) : (answerMgmt s q ok w).trc = s.trc := rfl
@[simp] theorem answerMgmt_modCnt (s : State) (q : Nat) (ok : Bool) (w : List W64) : (answerMgmt s q ok w).modCnt = s.modCnt := rfl
@[simp] theorem answerMgmt_evc (s : State) (q : Nat) (ok : Bool) (w : List W64) : (answerMgmt s q ok w).evc = s.evc := rfl
@[simp] theorem answerMgmt_evs (s : State) (q : Nat) (ok : Bool) (w : List W64) : (answerMgmt s q ok w).evs = s.evs := rfl
@[simp] theorem answerMgmt_err (s : State) (q : Nat) (ok : Bool) (w : List W64) : (answerMgmt s q ok w).err = s.err := rfl
@[simp] theorem answerMgmt_sec (s : State) (q : Nat) (ok : Bool) (w : List W64) : (answerMgmt s q ok w).sec = s.sec := rfl
@[simp] theorem answerMgmt_nv (s : State) (q : Nat) (ok : Bool) (w : List W64) : (answerMgmt s q ok w).nv = s.nv := rfl
@[simp] theorem answerMgmt_glb (s : State) (q : Nat) (ok : Bool) (w : List W64) : (answerMgmt s q ok w).glb = s.glb := rfl
@[simp] theorem answerMgmt_cq (s : State) (q : Nat) (ok : Bool) (w : List W64) : (answerMgmt s q ok w).cq = s.cq := rfl
@[simp] theorem answerMgmt_atl (s : State) (q : Nat) (ok : Bool) (w : List W64) : (answerMgmt s q ok w).atl = s.atl := rfl
@[simp] theorem answerMgmt_patrolH (s : State) (q : Nat) (ok : Bool) (w : List W64) : (answerMgmt s q ok w).patrolH = s.patrolH := rfl
@[simp] theorem answerMgmt_half (s : State) (q : Nat) (ok : Bool) (w : List W64) : (answerMgmt s q ok w).half = s.half := rfl
@[simp] theorem answerMgmt_hostOut (s : State) (q : Nat) (ok : Bool) (w : List W64) : (answerMgmt s q ok w).hostOut = s.hostOut := rfl
@[simp] theorem answerMgmt_hostIn (s : State) (q : Nat) (ok : Bool) (w : List W64) : (answerMgmt s q ok w).hostIn = s.hostIn := rfl
@[simp] theorem answerMgmt_retries (s : State) (q : Nat) (ok : Bool) (w : List W64) : (answerMgmt s q ok w).retries = s.retries := rfl
@[simp] theorem answerMgmt_msix (s : State) (q : Nat) (ok : Bool) (w : List W64) : (answerMgmt s q ok w).msix = s.msix := rfl
@[simp] theorem answerMgmt_reads (s : State) (q : Nat) (ok : Bool) (w : List W64) : (answerMgmt s q ok w).reads = s.reads := rfl
@[simp] theorem answerMgmt_resp (s : State) (q : Nat) (ok : Bool) (w : List W64) : (answerMgmt s q ok w).resp = s.resp := rfl
@[simp] theorem answerMgmt_draws (s : State) (q : Nat) (ok : Bool) (w : List W64) : (answerMgmt s q ok w).draws = s.draws := rfl
@[simp] theorem coreOf_answerMgmt (s : State) (q : Nat) (ok : Bool) (w : List W64) (j : Nat) : coreOf (answerMgmt s q ok w) j = coreOf s j := rfl
@[simp] theorem clusterOf_answerMgmt (s : State) (q : Nat) (ok : Bool) (w : List W64) (j : Nat) : clusterOf (answerMgmt s q ok w) j = clusterOf s j := rfl
@[simp] theorem chanOf_answerMgmt (s : State) (q : Nat) (ok : Bool) (w : List W64) (j : Nat) : chanOf (answerMgmt s q ok w) j = chanOf s j := rfl
@[simp] theorem granuleOf_answerMgmt (s : State) (q : Nat) (ok : Bool) (w : List W64) (j : Nat) : granuleOf (answerMgmt s q ok w) j = granuleOf s j := rfl
@[simp] theorem partOf_answerMgmt (s : State) (q : Nat) (ok : Bool) (w : List W64) (j : Nat) : partOf (answerMgmt s q ok w) j = partOf s j := rfl
@[simp] theorem linkOf_answerMgmt (s : State) (q : Nat) (ok : Bool) (w : List W64) (j : Nat) : linkOf (answerMgmt s q ok w) j = linkOf s j := rfl
@[simp] theorem portOf_answerMgmt (s : State) (q : Nat) (ok : Bool) (w : List W64) (j : Nat) : portOf (answerMgmt s q ok w) j = portOf s j := rfl
@[simp] theorem traceOf_answerMgmt (s : State) (q : Nat) (ok : Bool) (w : List W64) (j : Nat) : traceOf (answerMgmt s q ok w) j = traceOf s j := rfl
@[simp] theorem markSlice_pending (s : State) (k : Nat) (g : Slice → Slice) : (markSlice s k g).pending = s.pending := rfl
@[simp] theorem markSlice_mem (s : State) (k : Nat) (g : Slice → Slice) : (markSlice s k g).mem = s.mem := rfl
@[simp] theorem markSlice_poison (s : State) (k : Nat) (g : Slice → Slice) : (markSlice s k g).poison = s.poison := rfl
@[simp] theorem markSlice_lmeta (s : State) (k : Nat) (g : Slice → Slice) : (markSlice s k g).lmeta = s.lmeta := rfl
@[simp] theorem markSlice_cache (s : State) (k : Nat) (g : Slice → Slice) : (markSlice s k g).cache = s.cache := rfl
@[simp] theorem markSlice_cores (s : State) (k : Nat) (g : Slice → Slice) : (markSlice s k g).cores = s.cores := rfl
@[simp] theorem markSlice_clusters (s : State) (k : Nat) (g : Slice → Slice) : (markSlice s k g).clusters = s.clusters := rfl
@[simp] theorem markSlice_chans (s : State) (k : Nat) (g : Slice → Slice) : (markSlice s k g).chans = s.chans := rfl
@[simp] theorem markSlice_granules (s : State) (k : Nat) (g : Slice → Slice) : (markSlice s k g).granules = s.granules := rfl
@[simp] theorem markSlice_parts (s : State) (k : Nat) (g : Slice → Slice) : (markSlice s k g).parts = s.parts := rfl
@[simp] theorem markSlice_links (s : State) (k : Nat) (g : Slice → Slice) : (markSlice s k g).links = s.links := rfl
@[simp] theorem markSlice_ports (s : State) (k : Nat) (g : Slice → Slice) : (markSlice s k g).ports = s.ports := rfl
@[simp] theorem markSlice_fab (s : State) (k : Nat) (g : Slice → Slice) : (markSlice s k g).fab = s.fab := rfl
@[simp] theorem markSlice_sur (s : State) (k : Nat) (g : Slice → Slice) : (markSlice s k g).sur = s.sur := rfl
@[simp] theorem markSlice_pwr (s : State) (k : Nat) (g : Slice → Slice) : (markSlice s k g).pwr = s.pwr := rfl
@[simp] theorem markSlice_trc (s : State) (k : Nat) (g : Slice → Slice) : (markSlice s k g).trc = s.trc := rfl
@[simp] theorem markSlice_modCnt (s : State) (k : Nat) (g : Slice → Slice) : (markSlice s k g).modCnt = s.modCnt := rfl
@[simp] theorem markSlice_evc (s : State) (k : Nat) (g : Slice → Slice) : (markSlice s k g).evc = s.evc := rfl
@[simp] theorem markSlice_evs (s : State) (k : Nat) (g : Slice → Slice) : (markSlice s k g).evs = s.evs := rfl
@[simp] theorem markSlice_err (s : State) (k : Nat) (g : Slice → Slice) : (markSlice s k g).err = s.err := rfl
@[simp] theorem markSlice_sec (s : State) (k : Nat) (g : Slice → Slice) : (markSlice s k g).sec = s.sec := rfl
@[simp] theorem markSlice_nv (s : State) (k : Nat) (g : Slice → Slice) : (markSlice s k g).nv = s.nv := rfl
@[simp] theorem markSlice_glb (s : State) (k : Nat) (g : Slice → Slice) : (markSlice s k g).glb = s.glb := rfl
@[simp] theorem markSlice_cq (s : State) (k : Nat) (g : Slice → Slice) : (markSlice s k g).cq = s.cq := rfl
@[simp] theorem markSlice_atl (s : State) (k : Nat) (g : Slice → Slice) : (markSlice s k g).atl = s.atl := rfl
@[simp] theorem markSlice_patrolH (s : State) (k : Nat) (g : Slice → Slice) : (markSlice s k g).patrolH = s.patrolH := rfl
@[simp] theorem markSlice_half (s : State) (k : Nat) (g : Slice → Slice) : (markSlice s k g).half = s.half := rfl
@[simp] theorem markSlice_hostOut (s : State) (k : Nat) (g : Slice → Slice) : (markSlice s k g).hostOut = s.hostOut := rfl
@[simp] theorem markSlice_hostIn (s : State) (k : Nat) (g : Slice → Slice) : (markSlice s k g).hostIn = s.hostIn := rfl
@[simp] theorem markSlice_retries (s : State) (k : Nat) (g : Slice → Slice) : (markSlice s k g).retries = s.retries := rfl
@[simp] theorem markSlice_msix (s : State) (k : Nat) (g : Slice → Slice) : (markSlice s k g).msix = s.msix := rfl
@[simp] theorem markSlice_reads (s : State) (k : Nat) (g : Slice → Slice) : (markSlice s k g).reads = s.reads := rfl
@[simp] theorem markSlice_answers (s : State) (k : Nat) (g : Slice → Slice) : (markSlice s k g).answers = s.answers := rfl
@[simp] theorem markSlice_resp (s : State) (k : Nat) (g : Slice → Slice) : (markSlice s k g).resp = s.resp := rfl
@[simp] theorem markSlice_draws (s : State) (k : Nat) (g : Slice → Slice) : (markSlice s k g).draws = s.draws := rfl
@[simp] theorem coreOf_markSlice (s : State) (k : Nat) (g : Slice → Slice) (j : Nat) : coreOf (markSlice s k g) j = coreOf s j := rfl
@[simp] theorem clusterOf_markSlice (s : State) (k : Nat) (g : Slice → Slice) (j : Nat) : clusterOf (markSlice s k g) j = clusterOf s j := rfl
@[simp] theorem chanOf_markSlice (s : State) (k : Nat) (g : Slice → Slice) (j : Nat) : chanOf (markSlice s k g) j = chanOf s j := rfl
@[simp] theorem granuleOf_markSlice (s : State) (k : Nat) (g : Slice → Slice) (j : Nat) : granuleOf (markSlice s k g) j = granuleOf s j := rfl
@[simp] theorem partOf_markSlice (s : State) (k : Nat) (g : Slice → Slice) (j : Nat) : partOf (markSlice s k g) j = partOf s j := rfl
@[simp] theorem linkOf_markSlice (s : State) (k : Nat) (g : Slice → Slice) (j : Nat) : linkOf (markSlice s k g) j = linkOf s j := rfl
@[simp] theorem portOf_markSlice (s : State) (k : Nat) (g : Slice → Slice) (j : Nat) : portOf (markSlice s k g) j = portOf s j := rfl
@[simp] theorem traceOf_markSlice (s : State) (k : Nat) (g : Slice → Slice) (j : Nat) : traceOf (markSlice s k g) j = traceOf s j := rfl
theorem modQueue_eq (s : State) (n q : Nat) (g : Queue → Queue) : modQueue s n q g = modPart s n (fun p => { p with queues := tabMod {} p.queues q g }) := rfl
theorem modVd_eq (s : State) (n : Nat) (g : Vd → Vd) : modVd s n g = modPart s n (fun p => { p with vd := g p.vd }) := rfl
theorem modCtx_eq (s : State) (n : Nat) (g : Ctx → Ctx) : modCtx s n g = modPart s n (fun p => { p with ctx := g p.ctx }) := rfl
theorem modVf_eq (s : State) (n : Nat) (g : Vf → Vf) : modVf s n g = modPart s n (fun p => { p with vf := g p.vf }) := rfl
theorem modStr_eq (s : State) (n : Nat) (g : Str → Str) : modStr s n g = modPart s n (fun p => { p with str := g p.str }) := rfl
theorem modColl_eq (s : State) (n h : Nat) (g : Coll → Coll) : modColl s n h g = modPart s n (fun p => { p with colls := tabMod {} p.colls h g }) := rfl
theorem modLaunch_eq (s : State) (n l : Nat) (g : Launch → Launch) : modLaunch s n l g = modPart s n (fun p => { p with launches := tabMod {} p.launches l g }) := rfl
theorem countPart_eq (s : State) (n i k : Nat) : countPart s n i k = modPart s n (fun p => { p with counters := tabMod 0 p.counters i (· + BitVec.ofNat 64 k) }) := rfl
theorem progress_eq (s : State) (n : Nat) : progress s n = modPart s n (fun p => { p with progress := p.progress + 1 }) := rfl

end Sys2Proof.Laws
end

