-- ==== Sys2Proof/Laws/Core.lean ====
section
/-! SUPPORT. What issuing one instruction of a core comes to, register files and lanes read back after a write. -/

namespace Sys2Proof.Laws

open Sys2Proof.Machine

/-- Everything that issuing an instruction can do to a core that can issue. -/
theorem issue_cases (s : State) (c : Nat) (word : W32) (legal : Bool) (body : Core → CoreRes) (h : canIssue s c) :
    issue s c word legal body =
      if fetched (coreOf s c) ≠ word then
        if (decodeCore c (fetched (coreOf s c))).isSome then s else coreFault s c 1 (fetched (coreOf s c)) none
      else if legal then
        match body (coreOf s c) with
        | .ok k => issued s c k
        | .fault code addr => coreFault s c code word addr
        | .poisoned addr => coreMemFault s c 0 addr
      else coreFault s c 1 word none := by
  obtain ⟨h1, h2, h3, h4⟩ := h
  have hr : coreReady (coreOf s c) = true := by simp [coreReady, h1, h2]
  have hp : ((coreOf s c).pc < 0 || (coreOf s c).pc ≥ (coreOf s c).image.length) = false := by
    simp; omega
  unfold issue
  simp only [hr, hp, issued]
  by_cases hw : fetched (coreOf s c) = word
  · cases legal
    · simp [hw]
    · cases body (coreOf s c) <;> simp [hw]
  · simp [hw]

/-- An instruction that completes: its word stands at the PC, it is legal and its body goes on. -/
theorem issue_ok {s : State} {c : Nat} {word : W32} {legal : Bool} {body : Core → CoreRes} {k : Core} (h : canIssue s c)
    (hw : fetched (coreOf s c) = word) (hl : legal = true) (hb : body (coreOf s c) = .ok k) :
    issue s c word legal body = issued s c k := by
  rw [issue_cases s c word legal body h]; simp [hw, hl, hb]

/-- An instruction at the PC that faults. -/
theorem issue_fault {s : State} {c : Nat} {word : W32} {legal : Bool} {body : Core → CoreRes} {code : Nat} {addr : Option Int}
    (h : canIssue s c) (hw : fetched (coreOf s c) = word) (hl : legal = true) (hb : body (coreOf s c) = .fault code addr) :
    issue s c word legal body = coreFault s c code word addr := by
  rw [issue_cases s c word legal body h]; simp [hw, hl, hb]

/-- A command for an instruction that is not the one at the PC does nothing where that word decodes. -/
theorem issue_other {s : State} {c : Nat} {word : W32} {legal : Bool} {body : Core → CoreRes} (h : canIssue s c)
    (hw : fetched (coreOf s c) ≠ word) (hd : (decodeCore c (fetched (coreOf s c))).isSome = true) :
    issue s c word legal body = s := by
  rw [issue_cases s c word legal body h]; simp [hw, hd]

/-- A core that cannot issue stays as it is. -/
theorem issue_not_ready {s : State} {c : Nat} {word : W32} {legal : Bool} {body : Core → CoreRes}
    (h : coreReady (coreOf s c) = false) : issue s c word legal body = s := by simp [issue, h]

@[simp] theorem sRead_sWrite (k : Core) (r q : Nat) (v : W64) : sRead (sWrite k r v) q = if q = r ∧ r ≠ 0 then v else sRead k q := by
  unfold sRead sWrite
  by_cases hr : r = 0 <;> by_cases hq : q = 0 <;> simp_all <;> intro h <;> subst h <;> contradiction

@[simp] theorem vRead_vWrite (k : Core) (r q : Nat) (v : VReg) : vRead (vWrite k r v) q = if q = r then v else vRead k q := by
  simp [vRead, vWrite]

@[simp] theorem pRead_pWrite (k : Core) (r q : Nat) (v : W64) : pRead (pWrite k r v) q = if q = r ∧ r ≠ 0 then v else pRead k q := by
  unfold pRead pWrite
  by_cases hr : r = 0 <;> by_cases hq : q = 0 <;> simp_all <;> intro h <;> subst h <;> contradiction

end Sys2Proof.Laws
end

