-- ==== Sys2Proof/Laws/Memory.lean ====
section
/-! SUPPORT. Every operation over module memory keeps its canonical form, and leaves the partitions and the cores alone. -/

namespace Sys2Proof.Laws

open Sys2Proof.Machine

/-- Module memory in its canonical form (the empty value of a byte is zero). -/
abbrev MemWf (s : State) : Prop := tabWf 0#8 s.mem = true

theorem tabWfFrom_filter {α : Type} [DecidableEq α] (d : α) (p : Nat × α → Bool) (t : Tab α) (lo : Option Nat)
    (w : tabWfFrom d lo t = true) : tabWfFrom d lo (t.filter p) = true := by
  induction t generalizing lo with
  | nil => rfl
  | cons e t ih =>
    obtain ⟨k, v⟩ := e
    simp only [tabWfFrom, Bool.and_eq_true] at w
    simp only [List.filter]
    split
    · simp only [tabWfFrom, Bool.and_eq_true]; exact ⟨w.1, ih _ w.2⟩
    · have h := ih _ w.2
      cases lo with
      | none => exact tabWfFrom_none d _ _ h
      | some l =>
        have hk := w.1.1
        simp only [decide_eq_true_eq] at hk
        exact tabWfFrom_weaken d _ l k (by omega) h

/-- A property that every step of a fold keeps. -/
theorem foldl_keeps {α β : Type} (P : β → Prop) (f : β → α → β) (hf : ∀ b a, P b → P (f b a)) (l : List α) (b : β) (h : P b) :
    P (l.foldl f b) := by
  induction l generalizing b with
  | nil => exact h
  | cons a l ih => exact ih _ (hf _ _ h)

theorem chargeChan_mem (s : State) (g cls lines : Nat) (u : Option Nat) : (chargeChan s g cls lines u).mem = s.mem := by
  unfold chargeChan; split <;> simp

/-- What evicting a line can do to memory: nothing, or its bytes become those of its stack. -/
theorem evictLine_mem (s : State) (line : Nat) :
    (evictLine s line).mem = s.mem ∨ ∃ bs, (evictLine s line).mem = tabPut s.mem (line * 128) bs := by
  unfold evictLine
  split
  · exact .inl rfl
  · split
    · exact .inl (by simp [chargeChan_mem])
    · exact .inr ⟨_, rfl⟩

theorem evictLine_wf (s : State) (line : Nat) (h : MemWf s) : MemWf (evictLine s line) := by
  rcases evictLine_mem s line with e | ⟨bs, e⟩ <;> simp only [MemWf, e]
  · exact h
  · exact tabWf_tabPut _ _ _ h

theorem fillLine_wf (s : State) (line : Nat) (h : MemWf s) : MemWf (fillLine s line) := by
  unfold fillLine
  split
  · exact h
  · split
    · exact h
    · dsimp only
      split
      · exact h
      · exact evictLine_wf _ _ h

theorem dirtyLine_wf (s : State) (line : Nat) (h : MemWf s) : MemWf (dirtyLine s line) := by
  unfold dirtyLine; split <;> exact h

theorem cacheWrite_wf (s : State) (pa len : Nat) (h : MemWf s) : MemWf (cacheWrite s pa len) :=
  foldl_keeps MemWf _ (fun _ _ h => dirtyLine_wf _ _ (fillLine_wf _ _ h)) _ _ h

theorem flushCache_wf (s : State) (n d : Nat) (h : MemWf s) : MemWf (flushCache s n d) :=
  foldl_keeps MemWf _ (fun _ _ h => evictLine_wf _ _ h) _ _ h

theorem flushSpan_wf (s : State) (pa len : Nat) (h : MemWf s) : MemWf (flushSpan s pa len) :=
  foldl_keeps MemWf _ (fun _ _ h => evictLine_wf _ _ h) _ _ h

theorem dropLines_wf (s : State) (pa len : Nat) (h : MemWf s) : MemWf (dropLines s pa len) := h

theorem beneath_wf {α : Type} (s : State) (line : Nat) (f : State → State × α) (hf : ∀ u, MemWf u → MemWf (f u).1) (h : MemWf s) :
    MemWf (beneath s line f).1 := by
  unfold beneath
  split
  · exact hf _ h
  · exact tabWf_tabPut _ _ _ (hf _ (tabWf_tabPut _ _ _ h))

theorem memWrite_wf (s : State) (n pa : Nat) (bs : List Byte) (bad : Bool) (h : MemWf s) : MemWf (memWrite s n pa bs bad) := by
  unfold memWrite
  split
  · exact h
  · dsimp only
    split
    · exact tabWf_tabPut _ _ _ (cacheWrite_wf _ _ _ h)
    · exact tabWf_tabPut _ _ _ h

theorem clearSpan_wf (s : State) (pa len : Nat) (h : MemWf s) : MemWf (clearSpan s pa len) := tabWfFrom_filter _ _ _ _ h

theorem copyLine_wf (s : State) (n src dst : Nat) (h : MemWf s) : MemWf (copyLine s n src dst) := memWrite_wf _ _ _ _ _ h

theorem copyPages_wf (n src dst pages : Nat) (s : State) (h : MemWf s) : MemWf (copyPages n src dst pages s) :=
  foldl_keeps MemWf _ (fun _ _ h => copyLine_wf _ _ _ _ h) _ _ h

/-- What the cache and memory operations touch: memory, line metadata, the cache and the channels' queues. -/
def SameBeside (s t : State) : Prop :=
  t = { s with mem := t.mem, lmeta := t.lmeta, cache := t.cache, chans := t.chans, poison := t.poison }

theorem sameBeside_trans {s t u : State} (h : SameBeside s t) (g : SameBeside t u) : SameBeside s u := by
  unfold SameBeside at *; rw [g, h]

theorem evictLine_beside (s : State) (line : Nat) : SameBeside s (evictLine s line) := by
  unfold evictLine chargeChan SameBeside
  split
  · rfl
  · split
    · split <;> rfl
    · rfl

theorem fillLine_beside (s : State) (line : Nat) : SameBeside s (fillLine s line) := by
  unfold fillLine
  split
  · rfl
  · split
    · rfl
    · dsimp only
      split
      · rfl
      · exact sameBeside_trans (evictLine_beside s _) rfl

theorem dirtyLine_beside (s : State) (line : Nat) : SameBeside s (dirtyLine s line) := by
  unfold dirtyLine; split <;> rfl

theorem cacheWrite_beside (s : State) (pa len : Nat) : SameBeside s (cacheWrite s pa len) :=
  foldl_keeps (SameBeside s) _ (fun _ _ h => sameBeside_trans h (sameBeside_trans (fillLine_beside _ _) (dirtyLine_beside _ _))) _ _ rfl

/-- A write leaves everything alone but memory, its metadata and poison, the cache and the channels' queues. -/
theorem memWrite_beside (s : State) (n pa : Nat) (bs : List Byte) (bad : Bool) : SameBeside s (memWrite s n pa bs bad) := by
  unfold memWrite
  split
  · rfl
  · dsimp only
    split
    · exact sameBeside_trans (cacheWrite_beside s pa bs.length) rfl
    · rfl

/-- Every byte of a write reads back. -/
theorem memWrite_inside (s : State) (n pa : Nat) (bs : List Byte) (bad : Bool) (i : Nat) (h : i < bs.length) :
    tabGet 0#8 (memWrite s n pa bs bad).mem (pa + i) = bs.getD i 0#8 := by
  have hne : bs ≠ [] := by intro e; simp [e] at h
  unfold memWrite
  rw [if_neg hne]
  dsimp only
  split <;> exact tabGet_tabPut_inside _ _ _ _ h

end Sys2Proof.Laws
end

