-- ==== Sys2Proof/WellFormed.lean ====
section
/-! DEFINITION. Which commands are well formed: every index a command names is one the module has. -/

namespace Sys2Proof

/-- The indices of a command lie in the ranges the spec gives its units: cores and clusters (R5), partitions and functions (R31, R221),
queues (R221), ports (R321), links (R293), channels and stacks (R133), slices (R291), event targets (R429), trace units (R419),
virtual device identifiers (R258) and streams (R189). -/
def wellFormed (i : Instr) : Bool :=
  match i with
  | .add c _ _ _ _ => decide (c < 1024)
  | .sub c _ _ _ _ => decide (c < 1024)
  | .and c _ _ _ _ => decide (c < 1024)
  | .or c _ _ _ _ => decide (c < 1024)
  | .xor c _ _ _ _ => decide (c < 1024)
  | .shl c _ _ _ _ => decide (c < 1024)
  | .shr c _ _ _ _ => decide (c < 1024)
  | .sra c _ _ _ _ => decide (c < 1024)
  | .mul c _ _ _ _ => decide (c < 1024)
  | .mulh c _ _ _ _ => decide (c < 1024)
  | .div c _ _ _ _ => decide (c < 1024)
  | .rem c _ _ _ _ => decide (c < 1024)
  | .slt c _ _ _ _ => decide (c < 1024)
  | .sltu c _ _ _ _ => decide (c < 1024)
  | .min c _ _ _ _ => decide (c < 1024)
  | .max c _ _ _ _ => decide (c < 1024)
  | .addi c _ _ _ => decide (c < 1024)
  | .lui c _ _ _ => decide (c < 1024)
  | .andi c _ _ _ => decide (c < 1024)
  | .ori c _ _ _ => decide (c < 1024)
  | .slti c _ _ _ => decide (c < 1024)
  | .beq c _ _ _ => decide (c < 1024)
  | .bne c _ _ _ => decide (c < 1024)
  | .blt c _ _ _ => decide (c < 1024)
  | .bge c _ _ _ => decide (c < 1024)
  | .jal c _ => decide (c < 1024)
  | .jr c _ _ _ _ _ => decide (c < 1024)
  | .endTask c _ => decide (c < 1024)
  | .ld c _ _ _ _ => decide (c < 1024)
  | .ldu c _ _ _ _ => decide (c < 1024)
  | .st c _ _ _ _ => decide (c < 1024)
  | .vld c _ _ _ _ => decide (c < 1024)
  | .vst c _ _ _ _ => decide (c < 1024)
  | .vadd c _ _ _ _ _ => decide (c < 1024)
  | .vsub c _ _ _ _ _ => decide (c < 1024)
  | .vmul c _ _ _ _ _ => decide (c < 1024)
  | .vfma c _ _ _ _ _ => decide (c < 1024)
  | .vmax c _ _ _ _ _ => decide (c < 1024)
  | .vmin c _ _ _ _ _ => decide (c < 1024)
  | .vabs c _ _ _ _ _ => decide (c < 1024)
  | .vneg c _ _ _ _ _ => decide (c < 1024)
  | .vexp c _ _ _ _ _ => decide (c < 1024)
  | .vrcp c _ _ _ _ _ => decide (c < 1024)
  | .vsqrt c _ _ _ _ _ => decide (c < 1024)
  | .vand c _ _ _ _ _ => decide (c < 1024)
  | .vor c _ _ _ _ _ => decide (c < 1024)
  | .vxor c _ _ _ _ _ => decide (c < 1024)
  | .vshl c _ _ _ _ _ => decide (c < 1024)
  | .vshr c _ _ _ _ _ => decide (c < 1024)
  | .vcvt c _ _ _ _ _ _ _ _ _ => decide (c < 1024)
  | .vsum c _ _ _ _ _ => decide (c < 1024)
  | .vrmax c _ _ _ _ _ => decide (c < 1024)
  | .vrmin c _ _ _ _ _ => decide (c < 1024)
  | .vcmpEq c _ _ _ _ _ => decide (c < 1024)
  | .vcmpNe c _ _ _ _ _ => decide (c < 1024)
  | .vcmpLt c _ _ _ _ _ => decide (c < 1024)
  | .vcmpLe c _ _ _ _ _ => decide (c < 1024)
  | .vbcast c _ _ _ _ _ => decide (c < 1024)
  | .vmovs c _ _ _ _ _ => decide (c < 1024)
  | .vsel c _ _ _ _ _ => decide (c < 1024)
  | .vperm c _ _ _ _ _ => decide (c < 1024)
  | .mload c _ _ _ _ _ _ _ => decide (c < 1024)
  | .mmac c _ _ _ _ _ _ => decide (c < 1024)
  | .matrixChunkSummed c => decide (c < 1024)
  | .mstore c _ _ _ _ _ _ => decide (c < 1024)
  | .mscale c _ _ _ => decide (c < 1024)
  | .send c _ _ _ _ _ => decide (c < 1024)
  | .sendAccepted c _ => decide (c < 1024)
  | .recv c _ _ _ _ _ => decide (c < 1024)
  | .put c _ _ _ _ _ => decide (c < 1024)
  | .get c _ _ _ _ _ => decide (c < 1024)
  | .waitmsg c _ _ _ _ _ => decide (c < 1024)
  | .waitmsgTimeout c => decide (c < 1024)
  | .bar c _ _ _ _ _ => decide (c < 1024)
  | .fenceop c _ _ _ _ _ => decide (c < 1024)
  | .time c _ _ _ _ _ => decide (c < 1024)
  | .yieldTask c _ _ _ _ _ => decide (c < 1024)
  | .mfs c _ _ _ => decide (c < 1024)
  | .mts c _ _ _ => decide (c < 1024)
  | .taskBind n _ => decide (n < 64)
  | .preemptRequest c => decide (c < 1024)
  | .preemptStopTimeout c => decide (c < 1024)
  | .matrixQueueDrained c => decide (c < 1024)
  | .saveRecordWritten c => decide (c < 1024)
  | .restore n _ _ => decide (n < 64)
  | .forwardComplete c => decide (c < 1024)
  | .programImageReload c _ => decide (c < 1024)
  | .messageDeliver src _ => decide (src.n < 64)
  | .coreMapUpdate router _ _ _ => decide (router < 64)
  | .barArrival n _ _ _ _ => decide (n < 64)
  | .putWriteAtTarget _ n _ _ _ => decide (n < 64)
  | .getReadAtTarget _ n _ _ _ _ => decide (n < 64)
  | .response c _ _ _ => decide (c < 1024)
  | .collideRetry _ _ _ => true
  | .bulkWrite src _ _ => decide (src.modId < 2 ^ 20) && decide (src.n < 64)
  | .bulkRead src _ _ _ => decide (src.modId < 2 ^ 20) && decide (src.n < 64)
  | .collTrigger n _ _ _ => decide (n < 64)
  | .collEpochDone n _ _ _ => decide (n < 64)
  | .verdictApply n _ _ => decide (n < 64)
  | .stepTasksEnded n _ _ => decide (n < 64)
  | .verdictAcksComplete n _ => decide (n < 64)
  | .selectStep n _ _ => decide (n < 64)
  | .streamSlotFetch n stream => decide (n < 64) && decide (stream < 262144)
  | .kvSpill n _ _ => decide (n < 64)
  | .kvReload n stream _ => decide (n < 64) && decide (stream < 262144)
  | .kvPagesFreed n _ => decide (n < 64)
  | .ringRecordsPublish n _ => decide (n < 64)
  | .cidxPoll n _ _ => decide (n < 64)
  | .streamOpen f _ => decide (f < 65)
  | .streamAppend f _ => decide (f < 65)
  | .streamPause f _ => decide (f < 65)
  | .streamResume f _ => decide (f < 65)
  | .streamCancel f _ => decide (f < 65)
  | .streamClose f _ => decide (f < 65)
  | .ringCreate f _ => decide (f < 65)
  | .ringDestroy f _ => decide (f < 65)
  | .journalAccept n _ => decide (n < 64)
  | .journalMirror _ => true
  | .storeWriteComplete n _ _ => decide (n < 64)
  | .sqTailWrite f q port _ => decide (f < 65) && decide (q < 8) && decide (port < 2)
  | .cqHeadWrite f q port _ => decide (f < 65) && decide (q < 8) && decide (port < 2)
  | .packetFetch f q _ => decide (f < 65) && decide (q < 8)
  | .commandStart f q _ => decide (f < 65) && decide (q < 8)
  | .completionRecord f q _ => decide (f < 65) && decide (q < 8)
  | .commandTimeout f q _ => decide (f < 65) && decide (q < 8)
  | .fenceStandbyAck n => decide (n < 64)
  | .fenceStandbyTimeout n => decide (n < 64)
  | .nop f q _ => decide (f < 65) && decide (q < 8)
  | .wait f q _ => decide (f < 65) && decide (q < 8)
  | .signal f q _ => decide (f < 65) && decide (q < 8)
  | .fenceSetup f _ => decide (f < 65)
  | .rangeMap f _ => decide (f < 65)
  | .rangeUnmap f _ => decide (f < 65)
  | .llmConfig f _ => decide (f < 65)
  | .graphStore f _ _ _ => decide (f < 65)
  | .graphPatch f _ _ => decide (f < 65)
  | .graphDestroy f _ => decide (f < 65)
  | .launch f _ => decide (f < 65)
  | .graphLaunch f _ => decide (f < 65)
  | .graphNodeStart f _ _ _ => decide (f < 65)
  | .copy f _ _ => decide (f < 65)
  | .fill f _ => decide (f < 65)
  | .convert f _ _ => decide (f < 65)
  | .collRegister f _ _ _ => decide (f < 65)
  | .collInvoke f _ => decide (f < 65)
  | .collRelease f _ => decide (f < 65)
  | .migrateReturn f _ => decide (f < 65)
  | .rebalance f _ => decide (f < 65)
  | .selftest f _ => decide (f < 65)
  | .margin f _ => decide (f < 65)
  | .selftestDone _ => true
  | .queueCreate func queue => decide (func < 65) && decide (queue < 8)
  | .queueDestroy func queue => decide (func < 65) && decide (queue < 8)
  | .ctxSet func => decide (func < 65)
  | .ctxDestroy func => decide (func < 65)
  | .engineAbortAck f q _ => decide (f < 65) && decide (q < 8)
  | .engineAbortTimeout f q => decide (f < 65) && decide (q < 8)
  | .fenceSignal f _ => decide (f < 65)
  | .alloc n _ _ _ _ => decide (n < 64)
  | .free n _ _ _ => decide (n < 64)
  | .allocPortGet n _ _ => decide (n < 64)
  | .vdCreate _ => true
  | .vdGrow _ => true
  | .vdShrink _ => true
  | .vdRelease _ => true
  | .vdSet _ => true
  | .reserve _ vdid _ _ => decide (vdid < 16777216)
  | .prepare vdid _ _ => decide (vdid < 16777216)
  | .settle vdid _ => decide (vdid < 16777216)
  | .overlapWindowClose vdid => decide (vdid < 16777216)
  | .editionAckTimeout vdid _ => decide (vdid < 16777216)
  | .editionHoldTimeout vdid => decide (vdid < 16777216)
  | .fabricPacketReceive k _ => decide (k < 24)
  | .packetReturn _ => true
  | .routeFailTimeout _ _ => true
  | .transfer vdid stream _ _ _ _ => decide (vdid < 16777216) && decide (stream < 262144)
  | .held vdid stream _ _ => decide (vdid < 16777216) && decide (stream < 262144)
  | .released vdid stream _ => decide (vdid < 16777216) && decide (stream < 262144)
  | .handoffTimeout vdid stream _ => decide (vdid < 16777216) && decide (stream < 262144)
  | .arbiterTakeover vdid _ => decide (vdid < 16777216)
  | .sliceReturn slice => decide (slice < 472)
  | .capacityChange _ _ => true
  | .replayStart n _ => decide (n < 64)
  | .replayComplete n => decide (n < 64)
  | .linkTrain k _ => decide (k < 24)
  | .retrain k => decide (k < 24)
  | .frameReceive k _ _ _ => decide (k < 24)
  | .nakReplay k _ => decide (k < 24)
  | .keyEpochRoll k => decide (k < 24)
  | .oldKeyErase k => decide (k < 24)
  | .laneRecalibrate k => decide (k < 24)
  | .laneFail k lane => decide (k < 24) && decide (lane < 17)
  | .route _ _ => true
  | .linkStateChange k _ => decide (k < 24)
  | .lnkModidWrite _ => true
  | .idClaim k _ => decide (k < 24)
  | .idClaimTimeout => true
  | .rootHeartbeat _ => true
  | .heartbeatTimeout _ => true
  | .rootVdidCollect _ => true
  | .abort vdid _ _ _ _ => decide (vdid < 16777216)
  | .timeExchange _ _ _ _ => true
  | .flr port _ => decide (port < 2)
  | .perst port => decide (port < 2)
  | .hotReset port => decide (port < 2)
  | .vfMbxSend port n _ => decide (port < 2) && decide (n < 64)
  | .glbMbxDone port n => decide (port < 2) && decide (n < 64)
  | .switch n => decide (n < 64)
  | .portFailure port => decide (port < 2)
  | .flushRead port => decide (port < 2)
  | .flushReadComplete port => decide (port < 2)
  | .noPortTimeout n => decide (n < 64)
  | .atsInvalidateRequest port _ _ _ _ => decide (port < 2)
  | .pageFault port _ _ _ _ => decide (port < 2)
  | .pageRequestGroupResponse _ _ _ _ => true
  | .pageMigrate n _ _ => decide (n < 64)
  | .slotMove n _ _ _ => decide (n < 64)
  | .sliceEvacuate n slice => decide (n < 64) && decide (slice < 472)
  | .surAtcInv port _ _ => decide (port < 2)
  | .lockInterface n => decide (n < 64)
  | .startInterface n => decide (n < 64)
  | .stopInterface n => decide (n < 64)
  | .getDeviceInterfaceReport n => decide (n < 64)
  | .freeze n => decide (n < 64)
  | .save n => decide (n < 64)
  | .restoreImage n _ _ => decide (n < 64)
  | .thaw n => decide (n < 64)
  | .discard n => decide (n < 64)
  | .peerWindowAccess _ _ _ => true
  | .keyRotate => true
  | .resealSweepEnd n => decide (n < 64)
  | .migTarget _ _ _ => true
  | .commitSvn => true
  | .keyStatus => true
  | .tenantKeyDelivery vdid _ _ _ => decide (vdid < 16777216)
  | .getVersion session => decide (session < 10)
  | .getCapabilities session => decide (session < 10)
  | .negotiateAlgorithms session _ => decide (session < 10)
  | .getDigests session => decide (session < 10)
  | .getCertificate session _ => decide (session < 10)
  | .challenge session _ _ => decide (session < 10)
  | .getMeasurements session _ => decide (session < 10)
  | .keyExchange session => decide (session < 10)
  | .finish session _ => decide (session < 10)
  | .heartbeat session => decide (session < 10)
  | .keyUpdate session => decide (session < 10)
  | .endSession session => decide (session < 10)
  | .vendorDefinedRequest session _ _ => decide (session < 10)
  | .secureBoot _ _ => true
  | .alarm _ => true
  | .tamperLoopOpen => true
  | .tamperMeshBreach => true
  | .monitorOutOfRange => true
  | .faultInjectionDetect => true
  | .decommissionRequest _ => true
  | .debugAuthorisation _ _ => true
  | .foldWindowEnd _ _ _ _ vdid => decide (vdid < 16777216)
  | .errRingCidxWrite _ => true
  | .errHang n => decide (n < 64)
  | .wfgSweep vdid _ _ => decide (vdid < 16777216)
  | .processorWatchdogExpiry _ => true
  | .engineStall _ => true
  | .failureDeclaration vdid _ _ => decide (vdid < 16777216)
  | .isolationTimeout vdid => decide (vdid < 16777216)
  | .moduleRecovery vdid _ _ _ => decide (vdid < 16777216)
  | .stackRecovery stack _ => decide (stack < 12)
  | .recoveryReplace n => decide (n < 64)
  | .crashDump _ _ => true
  | .errDumpDest _ => true
  | .lineRepair n _ _ => decide (n < 64)
  | .lineRepairFail n _ => decide (n < 64)
  | .rowRepair g _ _ => decide (g < 384)
  | .pageRetire g _ => decide (g < 384)
  | .patrolRead _ _ _ _ => true
  | .sramPatrol _ _ _ _ => true
  | .stackRecalibrate g => decide (g < 384)
  | .stackRefresh g _ => decide (g < 384)
  | .innerEccReadout stack _ => decide (stack < 12)
  | .sliceErase slice => decide (slice < 472)
  | .sliceEraseEnd slice => decide (slice < 472)
  | .retirePendingTake g => decide (g < 384)
  | .channelSlotIssue g => decide (g < 384)
  | .urgentMarkExpiry g k => decide (g < 384) && decide (k < 24)
  | .activityEstimate c _ => decide (c < 64)
  | .weightRefit _ => true
  | .issueRateUpdate _ _ => true
  | .clockStep c _ => decide (c < 64)
  | .droop c _ => decide (c < 64)
  | .droopRestore c => decide (c < 64)
  | .vinChange _ _ => true
  | .inputCurrentLimit _ _ => true
  | .throttleN _ => true
  | .pldmSetPowerCap _ => true
  | .temperatureThreshold _ _ _ => true
  | .thermalShutdown _ _ => true
  | .meridianTick => true
  | .interpolatorResync c _ _ => decide (c < 64)
  | .vfCntSnap n => decide (n < 64)
  | .traceRecord t _ _ _ _ _ => decide (t < 8)
  | .traceTrigger t _ => decide (t < 8)
  | .trcCtlEnable t _ => decide (t < 8)
  | .tracePostEnd t => decide (t < 8)
  | .evcClaim target => decide (target < 6)
  | .evcEoi target _ => decide (target < 6)
  | .evcPrivSet target _ => decide (target < 6)
  | .evcShSet target _ => decide (target < 6)
  | .evcShRouteWrite target _ _ => decide (target < 6)
  | .eventSourceLevel target _ _ => decide (target < 6)
  | .moderationTimeout target => decide (target < 6)
  | .pwrEnRise => true
  | .pwrEnFall => true
  | .modRstNFall => true
  | .modRstNRise => true
  | .stackTraining stack _ => decide (stack < 12)
  | .pldmFwTransfer _ _ => true
  | .activateFirmware => true
  | .registerWrite _ func port _ _ _ _ => decide (func < 65) && decide (port < 2)
  | .frameSend k => decide (k < 24)
  | .matrixInstructionComplete c => decide (c < 1024)
  | .marginSweepEnd g _ => decide (g < 384)
  | .reserveTimeout => true
  | .registerRead _ func port _ _ _ => decide (func < 65) && decide (port < 2)
  | .portLinkUp port _ _ _ => decide (port < 2)
  | .stackTrainingLoss g => decide (g < 384)
  | .stackControllerStall stack => decide (stack < 12)
  | .cartoucheMonitorTimeout => true
  | .resetReadyTimeout vdid _ => decide (vdid < 16777216)

end Sys2Proof
end

