-- ==== Sys2Proof/Tests/Slice0.lean ====
section
/-! SUPPORT. Small tests: ill-formed commands are refused, single steps give what the spec's rules give, and every statement's hypotheses
are met by a concrete state. -/

namespace Sys2Proof.Tests

set_option Elab.async false

open Sys2Proof.Machine

/-- The state a step answers. -/
def after : Host.Outcome State Fault Refusal → State
  | .next t => t
  | _ => {}

def coreState (k : Core) : State := { cores := [(0, k)] }
def partState (p : Part) : State := { parts := [(0, p)] }

/-- One ill-formed command for each check is refused. -/
theorem test_wf_refuses : [Instr.add 1024 0 0 0 0, .taskBind 64 [], .streamSlotFetch 0 262144, .sqTailWrite 65 0 0 0, .sqTailWrite 0 8 0 0,
    .sqTailWrite 0 0 2 0, .portLinkUp 2 0 0 [], .getVersion 10, .errHang 64, .failureDeclaration 16777216 0 0, .stackRecovery 12 [],
    .rowRepair 384 0 0, .urgentMarkExpiry 0 24, .sliceErase 472, .traceTrigger 8 0, .evcClaim 6, .clockStep 64 false, .frameSend 24].all
      (fun i => !wellFormed i) = true := by decide
/-- Their neighbours inside the bounds are not. -/
theorem test_wf_admits : [Instr.add 1023 0 0 0 0, .taskBind 63 [], .streamSlotFetch 0 262143, .sqTailWrite 64 5 1 0, .getVersion 9, .errHang 63,
    .stackRecovery 11 [], .rowRepair 383 0 0, .urgentMarkExpiry 0 23, .sliceErase 471, .traceTrigger 7 0, .evcClaim 5, .clockStep 63 false,
    .frameSend 23].all wellFormed = true := by decide

/-! Single steps. -/

/-- A core whose registers s1 and s2 hold 7 and −2, with two instructions in its image. -/
def core : Core := { mode := .running, image := [0#32, 0#32], sreg := [(1, 7#64), (2, 0xFFFFFFFFFFFFFFFE#64)] }
/-- A core with the word of an instruction at its PC. -/
def atWord (i : Instr) (k : Core) : Core := { k with image := [(coreWord i).getD 0, 0#32] }
def reg (i : Instr) (k : Core) (r : Nat) : W64 := sRead (coreOf (after (exec i (coreState (atWord i k)))) 0) r

/-! Words written out from the encodings of R69 and R70. -/

theorem test_word_add : coreWord (.add 0 3 1 2 0) = some 0b000001_00011_00001_00010_00000000_000#32 := by decide
theorem test_word_addi : coreWord (.addi 0 3 1 0xFFFF#16) = some 0b000010_00011_00001_1111111111111111#32 := by decide
theorem test_word_beq : coreWord (.beq 0 1 2 5) = some 0b001000_00001_00010_0000000000000101#32 := by decide
theorem test_word_jal : coreWord (.jal 0 1) = some 0b001100_00000000000000000000000001#32 := by decide
theorem test_word_st : coreWord (.st 0 3 1 8 3) = some 0b010010_00011_00001_0000000001000_011#32 := by decide
theorem test_word_vmul : coreWord (.vmul 0 3 1 2 1 5) = some 0b011000_00011_00001_00010_00010_001_101#32 := by decide
theorem test_word_vcvt : coreWord (.vcvt 0 3 1 7 0 true false true 0 5) = some 0b011001_00011_00001_0111_0000_1_0_1_00_101#32 := by decide
theorem test_word_mload : coreWord (.mload 0 true false 9 true 1 2 0) = some 0b100000_1_0_1001_1_00001_00010_000000000#32 := by decide
theorem test_word_mmac : coreWord (.mmac 0 5 true false 1 9 0) = some 0b100001_101_1_0_00001_1001_000000000000#32 := by decide
theorem test_word_send : coreWord (.send 0 3 1 2 0 0) = some 0b101000_00011_00001_00010_00000000_000#32 := by decide
theorem test_word_fenceop : coreWord (.fenceop 0 true false true false 0) = some 0b110001_1_0_1_0_0000000000000000000000#32 := by decide
theorem test_decode_words : decodeCore 0 0b000001_00011_00001_00010_00000000_000#32 = some (.add 0 3 1 2 0) ∧
    decodeCore 0 0b011000_00011_00001_00010_00010_001_101#32 = some (.vmul 0 3 1 2 1 5) ∧ decodeCore 0 0#32 = none ∧
    decodeCore 0 0b000001_00011_00001_00010_00010000_000#32 = none := by decide

theorem test_add : reg (.add 0 3 1 2 0) core 3 = 5#64 := by decide
theorem test_sub_order : reg (.sub 0 3 1 2 0) core 3 = 9#64 := by decide
theorem test_shl_amount_is_ra : reg (.shl 0 3 1 2 0) core 3 = 0xFFFFFFFFFFFFFF00#64 := by decide
theorem test_shr_is_logical : reg (.shr 0 3 1 2 0) core 3 = 0x01FFFFFFFFFFFFFF#64 := by decide
theorem test_sra_keeps_sign : reg (.sra 0 3 1 2 0) core 3 = 0xFFFFFFFFFFFFFFFF#64 := by decide
theorem test_mulh_signed : reg (.mulh 0 3 1 2 0) core 3 = 0xFFFFFFFFFFFFFFFF#64 := by decide
theorem test_div_truncates : reg (.div 0 3 1 2 0) core 3 = 0xFFFFFFFFFFFFFFFD#64 := by decide
theorem test_rem_sign_of_dividend : reg (.rem 0 3 1 2 0) core 3 = 1#64 := by decide
theorem test_div_by_zero : reg (.div 0 3 1 0 0) core 3 = 0xFFFFFFFFFFFFFFFF#64 := by decide
theorem test_sltu_unsigned : reg (.sltu 0 3 1 2 0) core 3 = 1#64 := by decide
theorem test_s0_reads_zero : reg (.add 0 0 1 2 0) core 0 = 0#64 := by decide
theorem test_lui_signed : reg (.lui 0 3 0 0x8000#16) core 3 = 0xFFFFFFFF80000000#64 := by decide
theorem test_jal_link : reg (.jal 0 1) core 31 = 1#64 := by decide
theorem test_beq_not_taken : (coreOf (after (exec (.beq 0 1 2 5) (coreState (atWord (.beq 0 1 2 5) core)))) 0).pc = 1 := by decide
theorem test_idle_step : after (step State.reset) = State.reset := by decide
theorem test_front_command : after (step { coreState core with pending := [.add 0 3 1 2 0] }) =
    after (exec (.add 0 3 1 2 0) (coreState core)) := by decide

/-! Each statement's hypotheses met by a concrete state, clause by clause. -/

theorem wit_canIssue : canIssue (coreState core) 0 := by unfold canIssue; decide
/-- Every instruction of a core stands at the PC of some core that can issue it, whatever else that core holds. -/
theorem wit_atPc (i : Instr) (hi : (coreWord i).isSome = true) (k : Core) (h1 : k.mode = .running) (h2 : k.blocked = .none) (h3 : k.pc = 0) :
    canIssue (coreState (atWord i k)) 0 ∧ atPc (coreState (atWord i k)) 0 i := by
  obtain ⟨w, hw⟩ := Option.isSome_iff_exists.1 hi
  simp [canIssue, atPc, coreState, coreOf, tabGet, atWord, fetched, h1, h2, h3, hw]

/-- Loads and stores up to the last byte of local memory. -/
def coreEnd : Core := { core with sreg := [(1, 0x3FFF8#64), (2, 0x3FF80#64)] }
theorem wit_LoadsAndStores : (∀ i ∈ [Instr.ld 0 3 1 0 3, .ldu 0 3 1 0 3, .st 0 3 1 0 3, .vld 0 3 2 0 1, .vst 0 3 2 0 1],
      canIssue (coreState (atWord i coreEnd)) 0 ∧ atPc (coreState (atWord i coreEnd)) 0 i) ∧
    (effAddr coreEnd 1 0 8 = 0x3FFF8 ∧ 0x3FFF8 % 8 = 0 ∧ 0x3FFF8 + 8 ≤ 0x40000 ∧ localPoisoned coreEnd 0x3FFF8 8 = false ∧ nodeProtected coreEnd 0x3FFF8 8 = false) ∧
    (effAddr coreEnd 2 0 128 = 0x3FF80 ∧ 0x3FF80 % 128 = 0 ∧ 0x3FF80 + 128 ≤ 0x40000 ∧ localPoisoned coreEnd 0x3FF80 128 = false ∧
      ∀ j, j < 32 → active (pRead coreEnd 1) j = true → nodeProtected coreEnd (0x3FF80 + 4 * j) 4 = false) := by
  refine ⟨fun i hi => wit_atPc i ?_ _ rfl rfl rfl, by decide⟩
  simp only [List.mem_cons, List.not_mem_nil, or_false] at hi
  rcases hi with rfl | rfl | rfl | rfl | rfl <;> rfl

/-- Types 2 and 4 are the bounds of the two kinds, and a predicate with all, one and no lane set. -/
def coreVec : Core := { core with preg := [(1, 0#64), (2, 1#64)], vreg := [(1, 0x80000000#1024)] }
theorem wit_VectorReductionsAndCompare : canIssue (coreState coreVec) 0 ∧ (2 : BitVec 3).toNat ≤ 2 ∧ 3 ≤ (4 : BitVec 3).toNat ∧ (4 : BitVec 3).toNat ≤ 4 ∧
    activeLanes (pRead coreVec 2) (vRead coreVec 1) (fmtBits (tyFmt 4)) = 0 :: [] ∧
    activeLanes (pRead coreVec 2) (vRead coreVec 1) (fmtBits (tyFmt 2)) = 0 :: [] ∧
    activeLanes (pRead coreVec 1) (vRead coreVec 1) (fmtBits (tyFmt 4)) = [] ∧ (7 : BitVec 5).toNat < 8 := by
  unfold canIssue; decide +kernel
theorem wit_VectorMoves : canIssue (coreState coreVec) 0 ∧ (sRead coreVec 1).toNat < laneCount (fmtBits (tyFmt 0)) ∧
    fmtReg fFP32 = true ∧ fmtReg fINT32 = true ∧ fE4M3 ≤ 12 ∧ fE4M3 ≠ fLG4 ∧ fmtBlock fE4M3 = true ∧ fmtBlock 10 = true := by
  unfold canIssue; decide +kernel

/-- Matrix instructions at the PC, with a queue of fifteen and one of sixteen. -/
def fullQueue : List MatOp := List.replicate 16 (.scale { tile := 0, t := none, pc := 0, word := 0 })
theorem wit_MatrixIssue : ∀ i ∈ [Instr.mload 0 true true 10 true 1 2 0, .mmac 0 7 true true 1 15 0, .mstore 0 7 4 true true 1 0, .mscale 0 7 0 0],
    (canIssue (coreState (atWord i { core with queue := fullQueue.tail })) 0 ∧ atPc (coreState (atWord i { core with queue := fullQueue.tail })) 0 i ∧
      fullQueue.tail.length < 16) ∧
    canIssue (coreState (atWord i { core with queue := fullQueue })) 0 ∧ ¬ fullQueue.length < 16 := by
  unfold canIssue atPc; decide

/-- A queue with each kind of instruction at its front: an MMAC that opens a reduction of 65,536 / 2 chunks whose node stack ends with local memory,
one that goes on, an LG4 part with its scales and T = 1, an MLOAD behind an MMAC on the other slot, an FP32 store that ends with local memory. -/
def opMac (opens : Bool) (m : Nat) : MacOp :=
  { tile := 7, slot := 0, sub := 15, opens := opens, operand := BitVec.ofNat 64 (m * 2 ^ 16 + (0x40000 - stackDepth m * 8192) % 0x40000 * 2 ^ 32), pc := 0, word := 0 }
def opLoad (lg4 : Bool) : LoadOp :=
  { slot := 1, part := 0, fmt := if lg4 then fLG4 else fFP16, mx := lg4
    operand := BitVec.ofNat 64 (if lg4 then 0x3E000 + 0x3F000 * 2 ^ 18 + 256 * 2 ^ 36 else 0x3FC00), t := 0x3F800000#32, pc := 0, word := 0 }
def opStore : StoreOp := { tile := 0, fmt := fFP32, rtz := false, sat := false, operand := BitVec.ofNat 64 (0x3E000 + 256 * 2 ^ 18), pc := 0, word := 0 }
def coreMac (q : List MatOp) : Core := { core with
  queue := q
  parts := [(0, { valid := true, fmt := fFP32 }), (1, { valid := true, fmt := fFP32 })]
  descs := [(7, { opn := true, cov := 0, m := 2, base := 0x3E000, count := [(15, 1)] })] }
theorem wit_MatrixComplete :
    (coreOf (coreState (coreMac [])) 0).mode = .running ∧ (coreOf (coreState (coreMac [])) 0).blocked = .none ∧
    (pairOk fFP32 false fFP32 false = true ∧ 15 < covSubs (covOf fFP32) ∧
      (∀ m ∈ [1, 32768], let v := (opMac true m).operand.toNat
        bits v 63 50 = 0 ∧ bitOf v 15 = false ∧ bits v 31 16 = m ∧ bits v 14 0 % 2 ^ stackDepth m = 0 ∧ bits v 14 0 + m ≤ 32768 ∧
        bits v 49 32 % 4096 = 0 ∧ bits v 49 32 + stackDepth m * 8192 ≤ 0x40000 ∧
        localPoisoned (coreMac [.mac (opMac true m)]) (bits v 49 32) (stackDepth m * 8192) = false)) ∧
    (let d := tabGet {} (coreMac []).descs 7
     d.opn = true ∧ d.cov = covOf fFP32 ∧ tabGet 0 d.count 15 < d.m ∧ slotT { fmt := fFP32 } { fmt := fFP32 } = none ∧
     localPoisoned (coreMac []) d.base (stackDepth d.m * 8192) = false) ∧
    (∀ g ∈ [true, false], let o := opLoad g
      let v := o.operand.toNat
      v < 2 ^ 54 ∧ bits v 17 0 % 64 = 0 ∧ bits v 53 36 % 64 = 0 ∧ (o.fmt = fLG4 → o.mx = true ∧ scaleOk o.t.toNat = true) ∧
      bits v 17 0 + (partRuns o.fmt 0 - 1) * bits v 53 36 + runBytes o.fmt ≤ 0x40000 ∧
      (o.mx = true → bits v 35 18 % 64 = 0 ∧ bits v 35 18 + 16 * (partRuns o.fmt 0 - 1) + 16 ≤ 0x40000) ∧
      loadPoisoned (coreMac [.mac (opMac true 2), .load o]) o = false ∧ (opMac true 2).slot ≠ o.slot) ∧
    (tabGet {} (coreMac []).descs 0).opn = false ∧
    (let v := opStore.operand.toNat
     bits v 17 0 % 64 = 0 ∧ bits v 35 18 % 64 = 0 ∧ bits v 17 0 + 31 * bits v 35 18 + 8 * fmtBits fFP32 ≤ 0x40000 ∧ 8 * fmtBits fFP32 ≤ bits v 35 18) := by
  decide +kernel


/-- A kernel of two tasks; the first runs on core 0, the second on core 1. -/
def grid : Launch := { live := true, gx := 2, gy := 1, gz := 1, hi := 2, next := 2, coresident := true, tasks := [(0, { state := .bound }), (1, { state := .bound, core := 1 })] }
def gridState (k : Core) (x : Launch) : State :=
  { cores := [(0, k), (1, { core with task := 1 })], parts := [(0, { vd := { used := true, front := true }, ctx := { state := .active, tag := 1 }, launches := [(0, x)] })],
    slices := [(0, { state := .assigned })] }
/-- Operands of SEND, PUT, RECV and WAITMSG: task 1, channel 15, the last 4,096 bytes of local memory. -/
def coreMsg : Core := { core with sreg := [(1, BitVec.ofNat 64 (1 + 15 * 2 ^ 32)), (2, BitVec.ofNat 64 (0x3F000 + 4096 * 2 ^ 18)),
  (3, BitVec.ofNat 64 (2 ^ 52 - 64)), (4, BitVec.ofNat 64 (0x30000 + 65536 * 2 ^ 18)), (5, 0x8000#64)] }
def note (src : Nat) : Msg := { src := src, dst := 0, chan := 15, cseq := 0, payload := [1#8] }

theorem wit_MessageIssue :
    let s := gridState coreMsg grid
    let v := (sRead coreMsg 1).toNat
    let w := (sRead coreMsg 2).toNat
    let v' := (sRead coreMsg 3).toNat
    let w' := (sRead coreMsg 4).toNat
    canIssue s 0 ∧
    (v < 2 ^ 36 ∧ w < 2 ^ 31 ∧ bits w 17 0 % 64 = 0 ∧ 1 ≤ bits w 30 18 ∧ bits w 30 18 ≤ 4096 ∧ bits v 31 0 < gridSize (launchOf s 0 0) ∧ bits v 31 0 < 2 ^ 31 ∧
      bits w 17 0 + bits w 30 18 ≤ 0x40000 ∧ localPoisoned coreMsg (bits w 17 0) 4096 = false) ∧
    (v' < 2 ^ 52 ∧ v' % 64 = 0 ∧ w' < 2 ^ 35 ∧ bits w' 17 0 % 64 = 0 ∧ bits w' 34 18 % 64 = 0 ∧ 64 ≤ bits w' 34 18 ∧ bits w' 34 18 ≤ 65536 ∧
      bits w' 17 0 + bits w' 34 18 ≤ 0x40000 ∧ localPoisoned coreMsg (bits w' 17 0) 65536 = false) ∧
    ((∀ x ∈ (launchOf s 0 0).spill, x.dst ≠ coreMsg.task) ∧
      (∀ m ∈ [note 0], ¬ (m.chan = bits v 35 32 ∧ (false = true ∨ m.src = bits v 31 0))) ∧ ((note 1).chan = bits v 35 32 ∧ (note 1).src = bits v 31 0) ∧
      (note 1).payload.length ≤ bits w 30 18 ∧ nodeProtected coreMsg (bits w 17 0) 1 = false) ∧
    (sRead coreMsg 5).toNat < 2 ^ 16 := by
  unfold canIssue; decide +kernel

/-- Operands of BAR: barrier 7, two tasks. -/
def coreBar : Core := { core with sreg := [(1, 7#64), (2, 2#64)] }
theorem wit_BarAndEnd :
    let s := gridState coreBar grid
    let s' := gridState coreBar { grid with bars := [(7, { count := 2, arrived := [1] })] }
    let w := (sRead coreBar 2).toNat
    canIssue s 0 ∧ (sRead coreBar 1).toNat < 8 ∧ 2 ≤ w ∧ w < 2 ^ 32 ∧ (launchOf s 0 0).coresident = true ∧
    (let bar := tabGet {} (launchOf s 0 0).bars 7
     bar.owed = [] ∧ coreBar.task ∉ bar.arrived ∧ bar.arrived = [] ∧ bar.arrived.length + 1 < w) ∧
    (let bar := tabGet {} (launchOf s' 0 0).bars 7
     bar.owed = [] ∧ coreBar.task ∉ bar.arrived ∧ bar.count = w ∧ bar.arrived.length + 1 = w) ∧
    (coreBar.queue = [] ∧ coreBar.sends = [] ∧ coreBar.xfers = [] ∧ coreBar.inbox = [] ∧ coreBar.direct = []) ∧
    canIssue (gridState (coreMac [.mac (opMac true 1)]) grid) 0 ∧ (coreMac [.mac (opMac true 1)]).queue ≠ [] := by
  unfold canIssue; decide +kernel

theorem wit_MessageProgress :
    let o : OutSend := { sid := 0, since := 0, msg := { src := 0, dst := 1, chan := 0, cseq := 0, payload := [1#8] } }
    let k : Core := { core with sends := [o] }
    let s := gridState k grid
    let x := launchOf s 0 0
    (k.mode = .running ∧ k.blocked = .none ∧ o.msg.dst < 2 ^ 31 ∧ x.lo ≤ o.msg.dst ∧ o.msg.dst < x.hi ∧ (tabGet {} x.tasks o.msg.dst).state ≠ .done ∧
      spaceFor s 0 0 o.msg = true) ∧
    (coreOf (coreState { core with blocked := .waitmsg 1 1 1 0 }) 0).blocked = .waitmsg 1 1 1 0 ∧
    (∀ st ∈ [TaskState.pending, .moving, .bound], ∃ y : Launch, y.live = true ∧ y.flight = [note 1] ∧ (tabGet {} y.tasks 0).state = st ∧ (tabGet {} y.tasks 0).core = 0 ∧ y.spill = [] ∧
      (partOf (gridState core y) 0).launches = [(0, { launchOf (gridState core y) 0 0 with flight := [note 1] })]) ∧
    ((sliceOf s 0).state = .assigned ∧ (sliceOf s 0).owner = 0 ∧ (clusterOf s 0).coreMap.length < 4096) ∧
    (x.live = true ∧ 0 ∉ (tabGet {} x.bars 7).arrived ∧ (tabGet {} x.bars 7).arrived.length + 1 < 2) ∧
    (∀ m ∈ x.spill, m.dst ≠ k.task) := by
  intro o k s x
  refine ⟨by decide +kernel, by decide +kernel, ?_, by decide +kernel, by decide +kernel, by decide +kernel⟩
  intro st _
  exact ⟨{ grid with tasks := [(0, { state := st })], flight := [note 1] }, rfl, rfl, by cases st <;> decide, by cases st <;> decide, rfl, rfl⟩

/-- A range of one 64 KiB extent on channel 0, with a HOST range behind it. -/
def range : Range := {
  kind := 1, r := true, w := true, shared := false, pool := false, base := 16, len := 16, modId := 0, n := 1, unit := 0, offset := 0,
  backing := 0, backAddr := 0, targets := [(0, false, 0)], hostBase := 0, pv := false, pasid := 0, residence := 0 }
def hostRange : Range := { range with kind := 2, base := 64, targets := [], hostBase := 0x100000 }
def part : Part := {
  vd := { used := true, front := true, vdid := 1, edition := 1, members := [{ rank := 0, modId := 0, compute := 1, memory := 1, partner := 0, partnerValid := false }] },
  ctx := { state := .active, tag := 1 }, ranges := [range, hostRange], vf := { exposedA := true } }
/-- A module with one partition on cluster 0 and channel 0, its VF's port A up. -/
def mach : State := {
  parts := [(0, part)], slices := [(0, { state := .assigned }), (64, { state := .assigned })],
  sec := { legend := [(0, { valid := true, rights := 0xFFFF, base := clusterPa 0, limit := clusterPa 0 + 0x57F000 }),
    (64, { valid := true, rights := 0xFFFF, limit := 0x7F3FF000 })] },
  ports := [(0, { link := 2, enabled := true })], chans := [(0, { trained := true })] }
def machCore (k : Core) (x : Launch) : State := { mach with cores := [(0, k)], parts := [(0, { part with launches := [(0, x)] })] }

/-- A kernel of one task whose image of two words and arguments of 8 bytes stand in the range. -/
def fresh : Launch := { grid with next := 0, gx := 1, hi := 1, tasks := [], program := 0x10000, progLen := 2, args := 0x1FFF8, argLen := 8 }
theorem wit_TaskLife :
    let s := machCore {} fresh
    ((partOf s 0).vd.used = true ∧ (partOf s 0).ctx.state = .active ∧ bindLaunch s 0 = some 0 ∧ (idleCores s 0).head? = some 0 ∧ mapRoom s 0 = true ∧
      (launchOf s 0 0).early = [] ∧ (launchOf s 0 0).spill = [] ∧ imageFor (bindTranslate s 0 fresh) 0 0 fresh [] = .ok (List.replicate 8 0#8) ∧
      readSpan (bindTranslate s 0 fresh) (dispatchOf s 0 fresh) 0 0x1FFF8 8 [] = .ok (List.replicate 8 0#8)) ∧
    (∃ k : Core, k.mode = .running ∧ k.preemptReq = true) ∧ (∃ k : Core, k.mode = .draining ∧ k.queue = []) ∧ (∃ k : Core, k.mode = .saving) ∧
    (let r : SaveRec := { version := 1, launch := 0, task := 0, cause := 0, extent := 4096, oldCore := 0, core := core }
     let t : State := { mach with parts := [(0, { part with launches := [(0, grid)], saves := [r] })] }
     (partOf t 0).saves = [r] ∧ (partOf t 0).ctx.state ≠ .frozen ∧ (idleCores t 0).head? = some 0 ∧ mapRoom t 0 = true ∧ recordVersion t r = 1 ∧
     (∀ y ∈ (recordCore t r).xfers, y.parked = none) ∧ recordVersion t { r with version := 2 } ≠ 1) := by
  refine ⟨?_, ⟨{ mode := .running, preemptReq := true }, rfl, rfl⟩, ⟨{ mode := .draining }, rfl, rfl⟩, ⟨{ mode := .saving }, rfl⟩, ?_⟩ <;> decide +kernel

/-- A PUT, a GET and a retry at the last bytes of the range's extent. -/
def xput : Xfer := { xid := 0, write := true, va := 0x1FFC0, lbase := 0, len := 64, data := List.replicate 64 1#8 }
theorem wit_Requests :
    let s := machCore { core with xfers := [xput] } grid
    let g := machCore { core with xfers := [{ xput with write := false, data := [] }] } grid
    let a := machCore { core with xfers := [{ xput with write := false, answer := some .ok, data := List.replicate 64 1#8 }] } grid
    let b := machCore { core with xfers := [{ xput with backoff := 16, todo := [0x7FF] }] } grid
    (partOf s 0).vd.used = true ∧ deviceSpan s 0 0x1FFC0 64 range 0xFFC0 ∧ (writeRefused s (.copy 0) 0 0x1FFC0 64).isNone = true ∧ (writeRefused s (.remote 1) 0 0x1FFC0 64).isNone = true ∧
    ((writeRefused s (.core 0) 0 0x1FFC0 64).isNone = true ∧ readyXfer s 0 true 0x1FFC0 (fun y => y.data == List.replicate 64 1#8) = some xput ∧
      taskShut (partOf s 0) xput.graph xput.va xput.len true = false) ∧
    (64 ≤ 128 - 0x1FFC0 % 128 ∧ masterShut (partOf s 0) (.remote 1) 0x1FFC0 = false ∧ checkAccess s (.remote 1) 0 0xFFC0 false = .ok ∧ checkAccess s (.core 0) 0 0xFFC0 false = .ok ∧
      memPoisoned s 0xFFC0 64 = false ∧ (lineMeta s (0xFFC0 / 128)).getLsbD 1 = false ∧
      (readyXfer g 0 false 0x1FFC0 (fun y => y.len == 64)).isSome = true ∧ taskShut (partOf g 0) 0 0x1FFC0 64 false = false) ∧
    (holderOf a 0 0 = .core 0 ∧ (xferOf a 0 0).isSome = true ∧ nodeProtected (coreOf a 0) 0 64 = false) ∧
    ((xferOf b 0 0).isSome = true ∧ (holderCore b (holderOf b 0 0)).part = 0 ∧ deviceSpan b 0 (wordPart xput.va xput.data 0x7FF).1 (wordPart xput.va xput.data 0x7FF).2.length range 0xFFC0) := by
  simp only [deviceSpan]; decide +kernel

theorem wit_CoreFaults : canIssue (coreState core) 0 ∧ (3 : BitVec 3).toNat ≤ 3 ∧ ¬ (4 : BitVec 3).toNat ≤ 3 ∧
    (effAddr coreEnd 1 1 8 = 0x40000 ∧ effAddr core 2 0 1 = -2 ∧ effAddr core 1 0 8 = 7) ∧
    (∃ k : Core, k.mode = .running ∧ k.blocked = .none ∧ (k.image.length : Int) ≤ k.pc) ∧ coreReady {} = false := by
  unfold canIssue
  exact ⟨by decide, by decide, by decide, by decide, ⟨{ mode := .running }, rfl, rfl, by decide⟩, by decide⟩

/-! Clauses of the message, barrier, request and fault statements that the witnesses above do not meet. -/

theorem wit_MessageIssue_full :
    let o : OutSend := { sid := 0, since := 0, msg := note 0 }
    canIssue (coreState (atWord (.send 0 3 1 2 0 0) { core with sends := List.replicate 8 o })) 0 ∧ 8 ≤ (List.replicate 8 o).length ∧
    canIssue (coreState (atWord (.put 0 3 1 2 0 0) { core with xfers := List.replicate 16 xput })) 0 ∧ 16 ≤ (List.replicate 16 xput).length ∧
    canIssue (coreState { core with preemptReq := true }) 0 ∧
    (let s : State := { cores := [(0, { core with sreg := [(1, BitVec.ofNat 64 (2 ^ 31 + 7))] })], parts := [(0, { part with colls := [(7, { registered := true })] })] }
     canIssue s 0 ∧ 2 ^ 31 ≤ bits (sRead (coreOf s 0) 1).toNat 31 0 ∧ (collOf s 0 (bits (sRead (coreOf s 0) 1).toNat 31 0 - 2 ^ 31)).registered = true) := by
  unfold canIssue; decide +kernel

theorem wit_BarAndEnd_preempt :
    let s := gridState { coreBar with preemptReq := true } { grid with bars := [(7, { count := 2, arrived := [1] })] }
    let u := gridState coreBar { grid with bars := [(7, { owed := [0] })] }
    canIssue s 0 ∧ (tabGet {} (launchOf s 0 0).bars 7).arrived.length + 1 = 2 ∧ (coreOf s 0).preemptReq = true ∧
    (∀ d ∈ [1, 2], (coreOf s d).mode ≠ .running ∨ (coreOf s d).task ≠ (coreOf s 0).task) ∧ (launchOf s 0 0).lo ≤ (coreOf s 0).task ∧ (coreOf s 0).task < (launchOf s 0 0).hi ∧
    (canIssue u 0 ∧ (coreOf u 0).task ∈ (tabGet {} (launchOf u 0 0).bars 7).owed) := by
  unfold canIssue; decide +kernel

theorem wit_MessageProgress_far :
    let o : OutSend := { sid := 0, since := 0, msg := { src := 0, dst := 1, chan := 0, cseq := 0, payload := [1#8] } }
    let ms : List Member := [{ rank := 0, modId := 0, compute := 1, memory := 0, partner := 0, partnerValid := false }, { rank := 1, modId := 7, compute := 1, memory := 0, partner := 0, partnerValid := false }]
    let s : State := { cores := [(0, { core with sends := [o] })], parts := [(0, { part with vd := { part.vd with members := ms }, launches := [(0, { grid with hi := 1 })] })] }
    let d := gridState { core with sends := [o] } { grid with tasks := [(1, { state := .done })] }
    let f := gridState core { grid with flight := [o.msg], tasks := [(1, { state := .bound, core := 1 })] }
    ((coreOf s 0).sends = [o] ∧ (launchOf s 0 0).hi ≤ o.msg.dst ∧ (homeMember (partOf s 0).vd (gridSize (launchOf s 0 0)) o.msg.dst).map (·.modId) = some 7) ∧
    ((coreOf d 0).sends = [o] ∧ (tabGet {} (launchOf d 0 0).tasks 1).state = .done) ∧
    (forwardPlace f 0 0 1 = none ∧ forwardPlace { f with clusters := [(0, { coreMap := [(mapKey 0 1, 1025 + 7)] })] } 0 0 1 = some 7) := by
  decide +kernel

theorem wit_Requests_held :
    let u : Retry := { m := .copy 0, n := 0, va := 0x1FFC0, data := [1#8], todo := [0x7FF], backoff := 4 }
    let s : State := { mach with retries := [u] }
    deviceSpan s 0 0x1FFC0 64 range 0xFFC0 ∧ lineHeld s (.copy 0) 0x1FFC0 64 = true ∧ lineHeld mach (.copy 0) 0x1FFC0 64 = false := by
  simp only [deviceSpan]; decide +kernel

theorem wit_CoreFaults_words :
    (coreWord (.add 0 1 2 3 4) = some (wordT 1 1 2 3 0 4) ∧ decodeCore 0 (wordT 1 1 2 3 0 4) = some (.add 0 1 2 3 4)) ∧
    canIssue (coreState (atWord (.nop 0 0 0) core)) 0 ∧ decodeCore 0 (fetched (coreOf (coreState (atWord (.nop 0 0 0) core)) 0)) = none ∧
    ¬ atPc (coreState (atWord (.nop 0 0 0) core)) 0 (.add 0 1 2 3 0) ∧
    ((decodeCore 0 (fetched (coreOf (coreState (atWord (.lui 0 1 0 0) core)) 0))).isSome = true ∧ ¬ atPc (coreState (atWord (.lui 0 1 0 0) core)) 0 (.add 0 1 2 3 0)) ∧
    (∀ i ∈ [Instr.add 0 1 2 3 7, .mts 0 1 2 3, .ld 0 1 2 0 4, .put 0 1 2 3 0 0], canIssue (coreState (atWord i core)) 0 ∧ atPc (coreState (atWord i core)) 0 i) := by
  unfold canIssue atPc; decide +kernel

/-- What the engine finds unfit: a store and a scaling of an open tile, a misaligned load, one that leaves local memory, a chunk on empty parts. -/
theorem wit_CoreFaults_engine :
    let k := coreMac [.store { opStore with tile := 7 }]
    (tabGet {} k.descs 7).opn = true ∧ (opLoad false).operand.toNat < 2 ^ 54 ∧ bits (opLoad false).operand.toNat 17 0 % 64 = 0 ∧
    0x40000 < 0x3FFC0 + (partRuns fFP32 0 - 1) * 0 + runBytes fFP32 ∧ bits (opLoad true).operand.toNat 17 0 % 64 = 0 ∧ (64 + 1) % 64 ≠ 0 ∧
    pairOk fFP32 false fBF16 false = false ∧ covSubs (covOf fFP32) ≤ 16 ∧ (tabGet {} k.descs 0).opn = false ∧ bits (opMac true 0).operand.toNat 31 16 = 0 := by
  decide +kernel

def cmd (opc : Nat) (words : List W64) : Cmd :=
  { seq := 0, pseq := 0, opc := opc, ctx := 1, flags := 0, fwait := 0, fsig := 0, waitVal := 0, sigVal := 0, words := words, phase := .started }
def queue (cs : List Cmd) : Queue := { created := true, pktver := 3, sqLog2 := 8, cqLog2 := 6, sqTail := 2, cmds := cs, timeout := 1 }
/-- The module with commands in queue `q` of its VF. -/
def machQ (q : Nat) (cs : List Cmd) (p : Part := part) : State := { mach with parts := [(0, { p with queues := [(q, queue cs)] })] }
/-- A packet of one unit: opcode NOP, context 1, SEQ 0. -/
def nopPacket : List W64 := [BitVec.ofNat 64 (2 ^ 32 + 3 * 2 ^ 8), 0#64]

/-- Tail and head at the last place of the ring and one beyond it, the head's wrap, a record to be written. -/
theorem wit_DoorbellsAndCompletions :
    let s := machQ 0 [{ cmd 0 [] with phase := .done }]
    let x := queueOf s 0 0
    let out (v : Nat) := (v + 2 ^ 32 - x.fetched) % 2 ^ 32
    let step (v : Nat) := (v + 2 ^ 32 - x.sqTail) % 2 ^ 32
    let gone (v : Nat) := (v + 2 ^ 32 - x.cqHead) % 2 ^ 32
    x.created = true ∧ x.destroying = false ∧ (partOf s 0).ctx.state ≠ .destroying ∧ b2n (partOf s 0).vf.active = 0 ∧
    (step 256 < 2 ^ 31 ∧ out 256 ≤ 2 ^ x.sqLog2) ∧ 2 ^ x.sqLog2 < out 257 ∧ 2 ^ 31 ≤ step 1 ∧
    gone 0 ≤ (x.written + 2 ^ 32 - x.cqHead) % 2 ^ 32 ∧ (x.written + 2 ^ 32 - x.cqHead) % 2 ^ 32 < gone 1 ∧
    (cqRoom x = true ∧ goodStatus 0 = true ∧ (cmd 0 []).opc ≠ 3 ∧ targetPart s 0 (cmd 0 []) = some 0 ∧ (partOf s 0).ctx.state ≠ .lost ∧ (partOf s 0).ctx.state ≠ .recovering ∧ (portOf s (portFor s 0)).waiting = [] ∧
      logBytes (portOf s (portFor s 0)).log + 32 ≤ 0x40000) := by decide +kernel

theorem wit_CommandLife :
    let s := machQ 0 []
    let x := queueOf s 0 0
    let r := machQ 0 [{ cmd 0 [] with phase := .fetched }]
    let lost (c : CtxState) : State := machQ 0 [{ cmd 0 [] with phase := .fetched }] { part with ctx := { state := c, tag := 1 } }
    let w : Cmd := { cmd 0 [] with phase := .fetched, flags := 1, fwait := 0, waitVal := 5 }
    let fence (v : Nat) : State := machQ 0 [w] { part with fences := { exist := true, count := 16, words := [(0, BitVec.ofNat 64 v)] } }
    (1 = pktLen nopPacket + 1 ∧ nopPacket.length = 2 ∧ waitsForFetch s 0 0 = true ∧ fetchTurn s 0 0 = true ∧ 1 ≤ (x.sqTail + 2 ^ 32 - x.fetched) % 2 ^ 32 ∧
      x.fetched % 2 ^ x.sqLog2 + 1 ≤ 2 ^ x.sqLog2 ∧ pktSeq nopPacket = x.expSeq ∧ contentCheck s 0 0 nopPacket = none ∧ fenceIndexOk (partOf s 0).fences nopPacket = true) ∧
    pktSeq [0#64, 1#64] ≠ x.expSeq ∧ (contentCheck s 0 0 [0#64, 0#64]).isSome = true ∧
    (let p := [BitVec.ofNat 64 (2 ^ 32 + 2 ^ 12 + 3 * 2 ^ 8 + 2), 0#64, 5#64, 0#64]
     contentCheck s 0 0 p = none ∧ fenceIndexOk (partOf s 0).fences p = false) ∧
    (∃ y : Queue, 2 ^ y.sqLog2 < y.fetched % 2 ^ y.sqLog2 + 2 ∧ y.sqLog2 = 8) ∧
    ((findCmd r 0 0 0).isSome = true ∧ inTurn (queueOf r 0 0) { cmd 0 [] with phase := .fetched } = true ∧ ctxSays r 0 (cmd 0 []) = .run ∧ startTurn r 0 0 = true) ∧
    (ctxSays (lost .lost) 0 (cmd 0 []) = .lost ∧ ctxSays (lost .recovering) 0 (cmd 0 []) = .hold ∧ ctxSays (lost .destroying) 0 (cmd 0 []) = .gone) ∧
    (cmdWait w = true ∧ inTurn (queueOf (fence 5) 0 0) w = true ∧ waitSatisfied (fenceSeen (fence 5) 0 0) 5 = true ∧ waitSatisfied (fenceSeen (fence 4) 0 0) 5 = false ∧
      (fenceSeen (fence (2 ^ 63)) 0 0).getLsbD 63 = true) ∧
    inTurn (queueOf (machQ 0 [cmd 0 []]) 0 0) (cmd 0 []) = false ∧
    (let c := { cmd 0 [] with begun := true }
     (findCmd (machQ 0 [c]) 0 0 0) = some c ∧ c.begun = true ∧ c.opc ≠ 2 ∧ (queueOf (machQ 0 [c]) 0 0).timeout ≠ 0) := by
  refine ⟨?_, ?_, ?_, ?_, ⟨{ fetched := 255, sqLog2 := 8 }, by decide, rfl⟩, ?_, ?_, ?_, ?_, ?_⟩ <;> decide +kernel

/-- A fence at 5, a wait and a signal of values around half the range. -/
def fenced (v : Nat) : Part := { part with fences := { exist := true, count := 16, words := [(0, BitVec.ofNat 64 v)] } }
theorem wit_Fences :
    let s := machQ 0 [cmd 2 [0, 0, 5, 0]] (fenced 5)
    let d (v w : Nat) := (v + 2 ^ 48 - w % 2 ^ 48) % 2 ^ 48
    (fenceWaits s 0 = false ∧ (partOf s 0).fences.unacked = [] ∧ (partOf s 0).fences.shadow = 0) ∧
    (startedCmd (machQ 0 [cmd 0 []] (fenced 5)) 0 0 0 0x00).isSome = true ∧
    startedCmd s 0 0 0 0x02 = some (cmd 2 [0, 0, 5, 0]) ∧ (5 + 2 ^ 48 - 5) % 2 ^ 48 < 2 ^ 47 ∧ 2 ^ 47 ≤ (5 + 2 ^ 48 - 6) % 2 ^ 48 ∧
    (startedCmd (machQ 0 [cmd 3 [0, 0, 6, 0]] (fenced 5)) 0 0 0 0x03).isSome = true ∧ (1 ≤ d 6 5 ∧ d 6 5 < 2 ^ 47) ∧ d 5 5 = 0 ∧ 2 ^ 47 < d 4 5 ∧ d (2 ^ 47 + 5) 5 = 2 ^ 47 ∧
    (let c : Cmd := { cmd 3 [0, 0, 6, 0] with phase := .done }
     let u := machQ 0 [c] (fenced 5)
     (queueOf u 0 0).cmds = [c] ∧ c.seq = 0 ∧ c.opc = 3 ∧ c.status = 0 ∧ cmdSignal c = false ∧ (queueOf u 0 0).destroying = false ∧ cqRoom (queueOf u 0 0) = true) ∧
    (bits (15 * 2 ^ 48) 59 48 = 15 ∧ 15 < (partOf s 0).fences.count ∧ (partOf s 0).vd.front = true) ∧
    (let r := machQ 0 [cmd 4 [0, 0, 4096, 0]] (fenced 5)
     startedCmd r 0 0 0 0x04 = some (cmd 4 [0, 0, 4096, 0]) ∧ cmdWord (cmd 4 [0, 0, 4096, 0]) 16 = 4096 ∧ (partOf r 0).fences.count ≤ 4096 ∧ fencesInUse r 0 (0, 0) = false ∧ (cmd 4 [0, 0, 4096, 0]).ctx ≠ 0 ∧ ¬ (partOf r 0).fences.count ≤ 15) ∧
    (bitOf 0x8000000000000000 63 = true ∧ (BitVec.ofNat 64 (2 ^ 63)).getLsbD 63 = true) ∧
    (let t : State := { mach with parts := [(0, { part with vd := { part.vd with standbyRank := some 1, members := [{ rank := 1, modId := 9, compute := 1, memory := 1, partner := 0, partnerValid := false }] }, fences := { unacked := [(3, 1#64)] } })] }
     (partOf t 0).fences.unacked = [(3, 1#64)] ∧ (partOf t 0).fences.shadow = 0 ∧ fenceWaits t 0 = true) := by decide +kernel

/-- CQ_CTL with GO, for each operation. -/
def machCq (op : Nat) (p : Part) : State :=
  { mach with parts := [(0, p)], cq := { go := true, op := op, ctxArg := 1, qdesc := [(2, BitVec.ofNat 64 (2 ^ 60 + 3 * 2 ^ 56 + 8 * 2 ^ 48 + 6 * 2 ^ 40 + 2 ^ 32))] } }
theorem wit_QueuesAndContexts :
    (let s := machCq 1 part
     let d (i : Nat) : Nat := (tabGet 0 s.cq.qdesc i).toNat
     bits (d 2) 59 56 = 3 ∧ descOk 0 d = true ∧ (queueOf s 0 0).created = false ∧ (partOf s 0).ctx.state = .active ∧ (partOf s 0).vd.front = true ∧
     (partOf s 0).vf.tdi = .unlocked ∧ s.cq.waitReset = [] ∧ s.glb.migBusy = false) ∧
    (let s := machCq 2 { part with queues := [(0, queue [])] }
     (queueOf s 0 0).created = true ∧ (queueOf s 0 0).destroying = false ∧ (queueOf s 0 0).cmds = []) ∧
    (let s := machCq 3 { vd := { used := true } }
     (partOf s 0).vd.used = true ∧ (partOf s 0).vd.members = [] ∧ (partOf s 0).ctx.state = .none ∧ s.cq.ctxArg ≠ 0 ∧ s.cq.ctxArg ≠ 0xFFFF ∧ partOfTag s s.cq.ctxArg = none) ∧
    (let s := machCq 4 { part with vd := { part.vd with members := [] } }
     (partOf s 0).ctx.state = .active ∧ (partOf s 0).queues = [] ∧ (partOf s 0).vd.members = []) ∧
    (∃ y : Queue, y.destroying = true ∧ y.unacked = [1, 2]) ∧ (∃ y : Queue, y.destroying = true ∧ y.unacked = [1] ∧ y.cmds = []) := by
  refine ⟨?_, ?_, ?_, ?_, ⟨{ destroying := true, unacked := [1, 2] }, rfl, rfl⟩,
    ⟨{ destroying := true, unacked := [1] }, rfl, rfl, rfl⟩⟩ <;> decide +kernel

/-- The module with a second channel, a granule of scratchpad and one command in queue `q`. -/
def machTwo (q : Nat) (cs : List Cmd) (p : Part := part) : State :=
  { machQ q cs p with slices := [(0, { state := .assigned }), (64, { state := .assigned }), (65, { state := .assigned })], granules := [(5, { valid := true })] }
/-- A RANGE_MAP with AUTO of 16 pages from page 256 on, and one of length zero. -/
def mapCmd (len : Nat) : Cmd := cmd 8 ([0, 0, BitVec.ofNat 64 (2 ^ 60 + 2 ^ 58 + 2 ^ 57 + 2 ^ 56 + 2 ^ 20), BitVec.ofNat 64 len, 0, 0, 0, 0, 0, 0, 1#64])

/-- A module whose one channel leaves, with a member on module 7. -/
def fullMach (leaving : List Nat) : State :=
  { mach with parts := [(0, { part with ranges := [range], vd := { part.vd with leaving := leaving, members := part.vd.members ++ [{ rank := 1, modId := 7, compute := 1, memory := 1, partner := 0, partnerValid := false }] } })] }

theorem wit_RangesAndMoves :
    (let s := machTwo 0 [mapCmd 16]
     let w (i : Nat) : Nat := cmdWord (mapCmd 16) (16 + 8 * i)
     targetPart s 0 (mapCmd 16) = some 0 ∧ (startedCmd s 0 0 0 0x08).isSome = true ∧ (mapCheck s 0 w (cmdWord (mapCmd 16) 80)).isOk = true ∧
     (mapCheck s 0 (fun i => cmdWord (mapCmd 0) (16 + 8 * i)) (cmdWord (mapCmd 0) 80)).isOk = false ∧
     rangeTurn s 0 0 (mapCmd 16) = true ∧ otherMembers s 0 = [] ∧
     (match mapCheck s 0 w (cmdWord (mapCmd 16) 80) with | .ok r => placerHere s 0 r && (placeRange s 0 r (cmdWord (mapCmd 16) 80)).isOk | _ => false) = true ∧
     rangeTurn { s with parts := [(0, { partOf s 0 with rangeOp := some { f := 0, q := 0, seq := 0, kind := 0, stage := 0, waits := [], range := range } })] } 0 0 (mapCmd 16) = false) ∧
    (let s := machTwo 0 [cmd 9 [0, 0, 0x10000#64, 0]]
     (startedCmd s 0 0 0 0x09).isSome = true ∧ ((partOf s 0).ranges.find? (fun r => r.base * 4096 == 0x10000)) = some range ∧ heldOn s 0 range = [] ∧
     placerHere s 0 range = true ∧ rangeDrained s 0 range = true ∧ s.sur.moves = [] ∧ (partOf s 0).dying = []) ∧
    (let s := machTwo 0 [cmd 11 [0, 0, 0x10005#64, 0]]
     (startedCmd s 0 0 0 0x0B).isSome = true ∧ (granuleOf s (bits 0x10005 8 0)).valid = true ∧ (granuleOf s 5).part = 0 ∧ (granuleOf s 5).cache ≠ bitOf 0x10005 16 ∧
       (granuleOf s 5).cache = bitOf 5 16) ∧
    (let p : Part := { part with ranges := [range] }
     let s := machTwo 5 [cmd 0x61 [0, 0, 0x10000#64, 0x10000#64]] p
     (partOf s 0).ranges = [range] ∧ range.targets.getD 0 (1, false, 0) = (0, false, 0) ∧ 0 < range.targets.length ∧ (chanOf s 0).redirect = [] ∧
     slotCanMove s 0 range 0 1 = true ∧ (startedCmd s 0 5 0 0x61).isSome = true ∧ bits 0x10000 24 16 = 1 ∧ moveOf s 0 range.base 0 = none ∧
     (cmd 0x61 [0, 0, 0x10000#64, 0x10000#64]).moved = 0 ∧ slotCanMove s 0 range 0 0 = false ∧
     (chanOf s 1).redirect = [] ∧ range.offset + range.len / range.n ≤ chanPages ∧ 16 * 0 < range.len / range.n ∧ range.len / range.n ≤ 16 * (0 + 1) ∧
     16 * (0 + 1) < { range with len := 32 }.len / 1 ∧
     (let t : State := { s with parts := [(0, { p with vd := { p.vd with leaving := [0, 64] } })] }
      (partOf t 0).vd.leaving.contains 0 = true ∧ (sliceOf t 0).state = .assigned ∧ (partOf t 0).vd.leaving.contains (64 + 0) = true ∧ (sliceOf t 64).owner = 0 ∧
      (partOf t 0).carve.areas = [] ∧ (partOf t 0).residence = [] ∧ redirectsOf t 0 = [] ∧ (placeSlices t 0).find? (fun d => d != 0 && slotCanMove t 0 range 0 d) = some 1) ∧
     (let t := fullMach [64]
      (partOf t 0).vd.leaving.contains (64 + 0) = true ∧ (sliceOf t 64).state = .assigned ∧ (sliceOf t 64).owner = 0 ∧ (partOf t 0).ranges = [range] ∧ (partOf t 0).carve.areas = [] ∧
      (partOf t 0).residence = [] ∧ redirectsOf t 0 = [] ∧ (moveSlotOff t 0 0 range 0).isNone = true ∧ (partOf t 0).aways = [] ∧ otherMembers t 0 = [7])) := by
  decide +kernel

def migRange : Range := { range with kind := 3, base := 4096, len := 32, targets := [] }
def fault : FaultEntry := { port := 0, fn := 1, pasid := 0, page := 7, holders := [(0, 0)], sent := true }
theorem wit_HostPages :
    (let s : State := { machTwo 5 [cmd 0x60 [0, 0, BitVec.ofNat 64 (4096 * 4096), 0]] with parts := [(0, { part with ranges := [migRange] })] }
     (partOf s 0).ranges = [migRange] ∧ isHomePart (partOf s 0) = true ∧ (tabGet {} (partOf s 0).residence 4112).dev = false ∧ (freePage s 0).isSome = true ∧
     hostDest (translateSpan s (.cp 0) 0 (4112 * 4096) 65536 false (unitCode (.cp 0), 4112)) 0 (hostAddr migRange (4112 * 4096)) false 0 ≠ .wait ∧
     4112 < migRange.base + migRange.len ∧ (4112 - migRange.base) % 16 = 0) ∧
    (let s := machTwo 5 [cmd 0x60 [0, 0, BitVec.ofNat 64 (4096 * 4096), 0]] { part with ranges := [migRange], residence := [(4096, { dev := true, phys := 0x100000 })] }
     (startedCmd s 0 5 0 0x60).isSome = true ∧ findRange (partOf s 0) (4096 * 4096) = some migRange ∧
     (hostFunc s 0).isSome = true ∧ (∀ i, i < 16 → hostDest s 0 (hostAddr migRange (4096 * 4096) + 4096 * i) false 0 ≠ .wait) ∧
     tabGet {} (partOf s 0).residence (pageKey migRange (4096 * 4096)) = { dev := true, migrating := false, phys := 0x100000 }) ∧
    (let s : State := { mach with sur := { faultQ := [fault] } }
     s.sur.faultQ.length < 256 ∧ s.sur.faultQ = [fault] ∧ s.sur.waiting = [] ∧ s.sur.atc.length < 4096 ∧ (∀ x ∈ s.sur.faultQ, ¬ (x.fn = 64 ∧ x.pasid = 0 ∧ x.page = 7)) ∧
     (1, 0) ∉ fault.holders ∧ (s.sur.inv.filter (fun v => !v.go)).length < 32 ∧ (∀ v ∈ s.sur.inv, v.go = false)) ∧
    (let s : State := { machCore { core with xfers := [{ xput with performed := false }] } grid with sur := { faultQ := [fault] } }
     fault.sent = true ∧ fault.holders = [(0, 0)] ∧ (xferOf s 0 0).map (·.performed) = some false) ∧
    (2 ≤ tabGet 0 (portOf { mach with ports := [(0, { ats := [(1, 2)] })] } 0).ats 1 ∧ 32 ≤ (List.replicate 32 false).length) := by
  decide +kernel

/-- A pool whose heap begins at page 17, with one block of 4 KiB handed out. -/
def poolR : Range := { range with pool := true }
theorem wit_Allocator :
    let s : State := { mach with parts := [(0, { part with ranges := [poolR], pools := [(16, { blocks := [(0x11000, 12)] })] })] }
    let u : State := { mach with parts := [(0, { part with ranges := [poolR], pools := [(16, { replies := [(3, ⟨0, 12, 0⟩)] })] })] }
    poolRange (partOf s 0) 16 = some poolR ∧ poolR.modId = s.glb.moduleId ∧ portBusy (partOf s 0) 16 3 = false ∧ (poolBlock (partOf s 0) poolR 12).isSome = true ∧
    (poolBlock (partOf s 0) poolR 15).isSome = true ∧ (poolBlock (partOf s 0) poolR 30).isSome = false ∧ tabGet 0 (tabGet {} (partOf s 0).pools 16).blocks 0x11000 = 12 ∧
    tabGet 0 (tabGet {} (partOf s 0).pools 16).blocks 0x12000 = 0 ∧ (tabGet {} (partOf u 0).pools 16).replies = [(3, ⟨0, 12, 0⟩)] := by decide +kernel

/-- COPY of 64 bytes, FILL of 16 and CONVERT of 4 elements from FP32 to BF16, to the end of the range. -/
theorem wit_CopyEngine :
    (let c := cmd 0x40 [0, 0, 0x10000#64, 0x1FFC0#64, 64#64, 0]
     let s := machQ 3 [c]
     c.moved = 0 ∧ startedCmd s 0 3 0 0x40 = some c ∧ cmdWord c 32 ≤ 0x100000 ∧ (engineRead s (.copy (copyEngine s 0)) (copyHolder (copyEngine s 0) 0) 0 (cmdWord c 16) (cmdWord c 32) []).2 = .ok (List.replicate 64 0#8) ∧
     cmdWord c 16 + cmdWord c 32 ≤ cmdWord c 24 ∧ (writeRefused s (.copy (copyEngine s 0)) 0 (cmdWord c 24) (cmdWord c 32)).isNone = true ∧
     deviceSpan s 0 (cmdWord c 24) (cmdWord c 32) range 0xFFC0) ∧
    (let c := cmd 0x41 [0, 0, 0x1FFF0#64, 5#64, 16#64, 0]
     let s := machQ 3 [c]
     startedCmd s 0 3 0 0x41 = some c ∧ cmdWord c 32 % 8 = 0 ∧ (writeRefused s (.copy (copyEngine s 0)) 0 (cmdWord c 16) (cmdWord c 32)).isNone = true ∧
     deviceSpan s 0 (cmdWord c 16) (cmdWord c 32) range 0xFFF0) ∧
    (let c := cmd 0x42 [0, 0, 0x10000#64, 0x1FFF8#64, 4#64, 0x210#64]
     let s := machQ 3 [c]
     startedCmd s 0 3 0 0x42 = some c ∧ convertLegal (cmdWord c) = true ∧ bitOf (cmdWord c 40) 10 = false ∧
     (engineRead s (.copy (copyEngine s 0)) (copyHolder (copyEngine s 0) 0) 0 (cmdWord c 16) (packedBytes 32 4) []).2 = .ok (List.replicate 16 0#8) ∧ 4 ≤ convertSegment (cmdWord c) ∧
     (writeRefused s (.copy (copyEngine s 0)) 0 (cmdWord c 24) 8).isNone = true ∧ deviceSpan s 0 (cmdWord c 24) 8 range 0xFFF8) ∧
    (let c := cmd 0x42 [0, 0, 0x10000#64, 0x1E000#64, 32#64, 0x430#64]
     let s := machQ 3 [c]
     startedCmd s 0 3 0 0x42 = some c ∧ convertLegal (cmdWord c) = true ∧ bitOf (cmdWord c 40) 10 = true ∧ bits (cmdWord c 40) 3 0 = fFP32 ∧ 32 ≤ convertSegment (cmdWord c) ∧
     (engineRead s (.copy (copyEngine s 0)) (copyHolder (copyEngine s 0) 0) 0 (cmdWord c 16) (packedBytes 32 32) []).2 = .ok (List.replicate 128 0#8) ∧ s.sur.moves = [] ∧
     (writeRefused s (.copy (copyEngine s 0)) 0 0x1E000 32).isNone = true ∧ (writeRefused s (.copy (copyEngine s 0)) 0 (scaleArray 0x1E000 3 32) 1).isNone = true ∧
     deviceSpan s 0 0x1E000 32 range 0xE000 ∧ deviceSpan s 0 (scaleArray 0x1E000 3 32) 1 range (0xE000 + (scaleArray 0x1E000 3 32 - 0x1E000)) ∧ 32 ≤ scaleArray 0x1E000 3 32 - 0x1E000) := by
  simp only [deviceSpan]
  refine ⟨?_, ?_, ?_, ?_⟩ <;> decide +kernel

/-- A LAUNCH of one task with 64 KiB of spill area, a graph image of one COPY node, a patch of its length, a run of a graph with an idle collective. -/
def launchCmd : Cmd := cmd 0x30 [0, 0, 0x10000#64, 2#64, 0#64, 0#64, BitVec.ofNat 64 (64 * 2 ^ 32)]
def image : List Byte := [1, 0, 1, 0] ++ List.replicate 60 0#8 ++ [0x40#8] ++ List.replicate 31 0#8 ++ natBytes 8 0x10000 ++ natBytes 8 0x11000 ++ natBytes 8 64 ++ List.replicate 72 0#8
def version : GVersion := { ver := 0, opcs := [0x51], preds := [[]], params := [natBytes 96 1], gen := none, genBytes := [] }
theorem wit_KernelsAndGraphs :
    (let w := cmdWord launchCmd
     let total := (bits (w 24) 47 32 + 1) * (bits (w 24) 63 48 + 1) * (bits (w 32) 15 0 + 1)
     startedCmd (machQ 2 [launchCmd]) 0 2 0 0x30 = some launchCmd ∧ total ≤ 2 ^ 31 ∧ 1 ≤ bits (w 24) 13 0 ∧ bits (w 24) 13 0 ≤ 8192 ∧
     (bitOf (w 32) 16 = true → total ≤ 16 * 1) ∧ (bits (w 48) 48 32 + 3) / 4 ≤ freePages (machQ 2 [launchCmd]) 0) ∧
    (let c := cmd 0x10 [0, 0, 0x10000#64, 192#64, 0, 0]
     startedCmd (machQ 0 [c]) 0 0 0 0x10 = some c ∧ cmdWord c 32 = 0 ∧ (controlRead { machQ 0 [c] with mem := (List.range 192).zip image |>.filter (fun x => x.2 != 0) } 0 0 0x10000 192 []).2 = .ok image ∧
     (imageNodes image).isSome = true ∧ freeGraph (partOf (machQ 0 [c]) 0) = some 1) ∧
    (let c := cmd 0x11 [0, 0, 1#64, 0x10000#64, 0, 0]
     let s := machQ 0 [c] { part with graphs := [(1, { versions := [version] })] }
     startedCmd s 0 0 0 0x11 = some c ∧ (tabGet {} (partOf s 0).graphs 1).versions = [version] ∧ version.gen = none ∧ version.ver < 4095 ∧
     (controlRead s 0 0 0x10000 0 []).2 = .ok [] ∧ (patchAll version (pieces 16 [])).isSome = true) ∧
    (let c := cmd 0x12 [0, 0, 1#64, 0]
     let s := machQ 0 [c] { part with graphs := [(1, { versions := [version] })] }
     startedCmd s 0 0 0 0x12 = some c ∧ graphStreams (partOf s 0) 1 = false ∧ graphRuns (partOf s 0) 1 = false) ∧
    (let c := { cmd 0x31 [0, 0, 1#64, 0, 0] with moved := 1 }
     let s := machQ 2 [c] { part with graphs := [(1, { versions := [version] })], colls := [(1, { registered := true })] }
     (startedCmd (machQ 2 [{ c with moved := 0 }]) 0 2 0 0x31).isSome = true ∧ (tabGet {} (partOf s 0).graphs 1).versions.getLast? = some version ∧ runOf s 0 0 = some (version, [], []) ∧ version.opcs.getD 0 0 = 0x51 ∧
     nodeLegal 0x51 (version.params.getD 0 []) = true ∧ invokeOk (collOf s 0 1) 0 = true ∧ (collOf s 0 1).running = false) := by decide +kernel

/-- MAX over INT32, of two ranks with one element each. -/
def maxColl : Coll := { registered := true, op := 0, operator := 2, src := fINT32, dst := fINT32, n := 2, count := 1, ranks := [(0x10000, 0x10100), (0x10040, 0x1FFFC)] }
def collCmd : Cmd := cmd 0x50 [0, 0, BitVec.ofNat 64 (2 * 8 + 11 * 256 + 11 * 4096), BitVec.ofNat 64 (2 + 2 ^ 32), 0x10000#64, 0, 0, 0]
theorem wit_Collectives :
    (let s := machQ 4 [collCmd]
     startedCmd s 0 4 0 0x50 = some collCmd ∧ collOk (collOfCmd collCmd) (collOfCmd collCmd).chunks (cmdWord collCmd 40) (bits (cmdWord collCmd 16) 18 17) = true ∧ (collOfCmd collCmd).op ≤ 3 ∧
     (engineRead s (.coll 0) (1036, 0) 0 0x10000 32 []).2 = .ok (List.replicate 32 0#8) ∧ freeHandle (partOf s 0) = some 0 ∧
     (∀ x ∈ (partOf s 0).colls, x.2.askCmd ≠ some (0, 0)) ∧ stagingUsed s 0 + 0x100000 ≤ stagingBank) ∧
    (let c := cmd 0x51 [0, 0, 0#64, 0]
     let s := machQ 4 [c] { part with colls := [(0, maxColl)] }
     startedCmd s 0 4 0 0x51 = some c ∧ (collOf s 0 0).registered = true ∧ (collOf s 0 0).task = false ∧ (collOf s 0 0).running = false ∧ (collOf s 0 0).epoch ≠ 1) ∧
    (startedCmd (machQ 4 [cmd 0x52 [0, 0, 0, 0]]) 0 4 0 0x52).isSome = true ∧
    (∃ co : Coll, co.registered = true ∧ co.task = true ∧ 1 < co.n ∧ co.arrived = [(1, 0)] ∧ 1 ∉ co.triggered ∧ 1 ∉ co.early ∧ co.epoch = 0 ∧ co.running = false) ∧
    (∃ co : Coll, co.registered = true ∧ co.task = true ∧ 1 < co.n ∧ co.arrived = [(1, 0)] ∧ (0 : Nat) = (co.epoch + 1) % 2 ^ 32 ∧ 0 ≠ co.epoch) ∧
    (let s := machQ 4 [cmd 0x51 [0, 0, 0, 0]] { part with colls := [(0, { maxColl with running := true, cmd := some (0, none) })] }
     let co := collOf s 0 0
     let z := List.replicate 4 0#8
     frozen s 0 = false ∧ co.bad = false ∧
     (let hold : Nat × Nat := (1036, 0)
      let s1 := collTranslate (collTranslate s (.coll 2) 0 hold false [(0x10000, srcBytes co 0), (0x10040, srcBytes co 1)]) (.coll 2) 0 hold true [(0x10100, dstBytes co 0), (0x1FFFC, dstBytes co 1)]
      (readContribs s1 (.coll 2) 0 co 0 co.ranks [z, z]).toOption = some [z, z]) ∧ (collResult co [z, z]).map (·.length) = [4, 4] ∧
     deviceSpan s 0 0x10100 4 range 0x100 ∧ deviceSpan s 0 0x1FFFC 4 range 0xFFFC ∧ (writeRefused s (.coll 2) 0 0x10100 4).isNone = true ∧ (writeRefused s (.coll 2) 0 0x1FFFC 4).isNone = true) := by
  refine ⟨by decide +kernel, by decide +kernel, by decide +kernel, ⟨{ registered := true, task := true, n := 2, arrived := [(1, 0)] }, by decide⟩,
    ⟨{ registered := true, task := true, n := 2, arrived := [(1, 0)], epoch := 2 ^ 32 - 1 }, by decide⟩, ?_⟩
  simp only [deviceSpan]; decide +kernel

/-- A graph that generates: pages of 16 KiB and 16 positions from the pool at page 16; the domain is the range at page 1024. -/
def gen : GenBlock := {
  streamsMax := 8, tokensMax := 64, prefillChunk := 16, pageOrder := 14, tpp := 16, pools := [16], domains := [1024], handles := [], stepsInflight := 1,
  draftLimit := 4, age := 100, spill := 64, idLimit := 8 }
def genVersion : GVersion := { version with gen := some gen }
def domain : Range := { range with base := 1024, len := 512, offset := 1024 }
/-- A partition with that graph, a ring over the HOST range and streams. -/
def partStr (xs : List (Nat × Stream)) : Part :=
  { part with ranges := [{ poolR with len := 16 }, domain, hostRange], graphs := [(1, { versions := [genVersion] })],
              str := { tablePlaced := true, streams := xs, rings := [(0, { created := true, base := 0x40000, log2 := 8, pidxAddr := 0x48000, cidxAddr := 0x48008 })] },
              vd := { part.vd with partnerValid := true, partner := 5 } }
def stream : Stream := { state := .ready, graph := 1, cached := true, limit := 64, promptLen := 4, nextSeq := 1 }
def openCmd : Cmd := cmd 0x22 ([0, 0, BitVec.ofNat 64 (2 ^ 60), 0, BitVec.ofNat 64 (2 ^ 48), 64, 0, 0, 0, 0, 0, 0, 0x400000#64, BitVec.ofNat 64 (4 * 2 ^ 32), 0, 0, 0])

theorem wit_StreamCommands :
    ([0x24, 0x25, 0x26, 0x27].all (fun o => [StreamState.free, .ready, .paused, .done].all (fun x =>
      (startedCmd (machQ 1 [cmd o [0, 0, 0, 0]] (partStr [(0, { stream with state := x })])) 0 1 0 o).isSome)) = true) ∧
    acceptedIn 3 stream = true ∧ acceptedIn 3 { stream with state := .done } = false ∧ acceptedIn 4 { stream with state := .paused } = true ∧ acceptedIn 4 stream = false ∧
    acceptedIn 5 stream = true ∧ acceptedIn 5 { stream with state := .done } = false ∧ acceptedIn 6 { stream with state := .done } = true ∧ acceptedIn 6 stream = false ∧
    (let s := machQ 1 [cmd 0x24 [0, 0, 0, 0]] (partStr [(0, stream)])
     let t : State := { s with parts := [(0, { partOf s 0 with str := { tokens := [(0, (1, 9))] } })] }
     let u : State := { s with parts := [(0, { partOf s 0 with vd := part.vd })] }
     streamHome s 0 0 = s.glb.moduleId ∧ (partOf s 0).vd.partnerValid = true ∧ streamHome t 0 0 ≠ t.glb.moduleId ∧ (partOf u 0).vd.partnerValid = false ∧
     ∀ m ∈ (partOf s 0).journal.waiting, m.jseq ≠ (partOf s 0).journal.nextJseq) ∧
    (let s := machQ 1 [openCmd] (partStr [])
     let w (i : Nat) : Nat := cmdWord openCmd (16 + 8 * i)
     startedCmd s 0 1 0 0x22 = some openCmd ∧ ((partOf s 0).vd.members.find? (fun m => m.rank == bits (cmdWord openCmd 128) 19 0)).isSome = true ∧ cmdDurable openCmd = false ∧
     openRuns s 0 openCmd = false ∧ tabGet (0, 0) (partOf s 0).str.away 0 = (0, 0) ∧ openElsewhere s 0 openCmd = none ∧
     openCheck s 0 w 0 false = none ∧ (ssRead s 0 0 (slotFrom w).prompt (4 * (slotFrom w).promptLen)).2 = .ok (List.replicate 16 0#8) ∧
     (let u := (ssRead s 0 0 (slotFrom w).prompt (4 * (slotFrom w).promptLen)).1
      (partOf u 0).vd.partnerValid = true ∧ homeUsed u + 64 * (1 + (16 + (pieces 8 (List.replicate 16 0#8)).length + 7) / 8) + 256 ≤ 2 ^ 31)) ∧
    (let s := machQ 1 [openCmd] { partStr [] with str := { (partStr []).str with away := [(0, (1, 9))] } }
     startedCmd s 0 1 0 0x22 = some openCmd ∧ openElsewhere s 0 openCmd = some 0x14) ∧
    (let c := cmd 0x23 [0, 0, 0, 0x400000#64, BitVec.ofNat 64 (2 * 2 ^ 32)]
     let s := machQ 1 [c] (partStr [(0, { stream with state := .done, keep := true })])
     let r := ssRead s 0 0 (bits (cmdWord c 24) 51 0) (4 * bits (cmdWord c 32) 63 32)
     startedCmd s 0 1 0 0x23 = some c ∧ (streamOf s 0 0).state = .done ∧ (streamOf s 0 0).keep = true ∧
     r.2 = .ok (List.replicate 8 0#8) ∧ (partOf r.1 0).vd.partnerValid = true ∧ homeUsed r.1 + 64 * (1 + (8 + 1 + 7) / 8) ≤ 2 ^ 31) := by
  refine ⟨?_, ?_, ?_, ?_, ?_, ?_, ?_, ?_, ?_, ?_, ?_, ?_, ?_⟩ <;> decide +kernel

def item (typ : Nat) : JournalItem :=
  { typ := typ, vdid := 1, jseq := 1, edition := 1, stream := 0, owner := 0, reqTag := 0, seq := 1, durable := false,
    body := (List.range 16).map (fun i => BitVec.ofNat 64 (cmdWord openCmd (16 + 8 * i))) }
def entry (typ : Nat) (needStore mirrored : Bool) : Pending := { jseq := 1, cmdSeq := 0, func := 0, mirrored := mirrored, stored := false, needStore := needStore, item := item typ }
theorem wit_JournalEntries :
    (let p : Part := { partStr [] with journal := { waiting := [entry 1 false false] } }
     let s := machQ 1 [openCmd] p
     findCmd s 0 1 0 = some openCmd ∧ (partOf s 0).journal.waiting = [entry 1 false false] ∧ (entry 1 false false).cmdSeq = 0 ∧
     (streamOf s 0 (item 1).stream).state = .free ∧ newestGen (partOf s 0) (slotFrom (fun i => ((item 1).body.getD i 0).toNat)).graph = some (genVersion, gen) ∧ (takeBlock s 0 gen (listOrder gen 64)).isSome = true) ∧
    (let s := machQ 1 [openCmd] (partStr [])
     openStreams s < 262144 ∧ (ringOf s 0 (slotFrom (fun i => ((item 1).body.getD i 0).toNat)).ring).created = true ∧ (streamOf s 0 (item 1).stream).state = .free ∧
     (ringOf mach 0 0).created = false) ∧
    (let x := streamOf (machQ 1 [] (partStr [(0, stream)])) 0 0
     acceptedIn 3 x = true ∧ x.state ≠ .scheduled) ∧
    (entry 1 true false).needStore = true ∧ (entry 1 true true).mirrored = true ∧ (entry 1 true false).mirrored = false ∧ (entry 2 true false).item.typ ≤ 2 ∧
    mirrorUsed mach + itemSize (item 1) ≤ 2 ^ 31 := by decide +kernel

theorem wit_StepSelectionAndStorage :
    (let x : Stream := { stream with state := .prefill, pages := [1, 2] }
     let s : State := { mach with parts := [(0, partStr [(0, x)])] }
     genAt (partOf s 0) 1 0 = some gen ∧ streamsRun (partOf s 0) = true ∧ (partOf s 0).str.steps = [] ∧ 1 ≤ gen.stepsInflight ∧ 1 ≤ gen.streamsMax ∧
     orderedStreams s 0 1 0 gen (fun y => y.cached && (y.state == .prefill || y.state == .ready)) = [0] ∧ orderedStreams s 0 1 0 gen (fun y => y.state == .spilled) = [] ∧
     Nat.min (x.promptLen - x.prefilled) gen.prefillChunk ≤ gen.tokensMax ∧ 2 ≤ ringFree (partOf s 0).vd.front (ringOf s 0 x.ring) ∧ (x.position + 4 + gen.tpp - 1) / gen.tpp ≤ x.pages.length ∧
     (writeRefused s .ss 0 (1024 * 4096) (areaBytes gen)).isNone = true ∧ hostPageOf s 0 (1024 * 4096) true = none) ∧
    (let s : State := { mach with parts := [(0, partStr [(0, { stream with cached := false })])] }
     (streamOf s 0 0).state ≠ .free ∧ (streamOf s 0 0).cached = false ∧ cachedStreams s < 16384 ∧ waitsStep (streamOf s 0 0) = true ∧ (prefetchOrder s 0 1 0).head? = some 0) ∧
    (let s : State := { mach with parts := [(0, partStr [(0, { stream with state := .paused, cached := false }), (1, { stream with state := .done })])] }
     waitsStep (streamOf s 0 0) = false ∧ slotVictim s 0 0 0 = some (0, 1)) ∧
    (let s : State := { mach with parts := [(0, partStr [(0, { stream with cached := false }), (1, { stream with cached := false })])] }
     (prefetchOrder s 0 1 0).head? ≠ some 1 ∧ waitsStep (streamOf s 0 1) = true) ∧
    (let s : State := { mach with parts := [(0, partStr [(0, { stream with pages := [1] }), (1, { stream with state := .waitKv, prio := 7 })])] }
     gen.spill ≠ 0 ∧ (∃ y ∈ (partOf s 0).str.streams, y.2.graph = 1 ∧ y.2.gver = 0 ∧ y.2.state = .waitKv) ∧ spillVictim s 0 1 0 gen = some 0 ∧
     (spillPlace s 0 gen (1 * 1 * 2 ^ 14)).isSome = true ∧ streamsRun (partOf s 0) = true ∧
     (pageData (translatePages s 0 gen [] false) 0 gen [] []).isOk = true) ∧
    (let s : State := { mach with parts := [(0, partStr [(0, { stream with state := .spilled, spilled := 1 })])] }
     (streamOf s 0 0).state = .spilled ∧ canReload s 0 0 gen = true ∧ newestGen (partOf s 0) 1 = some (genVersion, gen) ∧ (takePage s 0 1 gen).isSome = true ∧
     (let r := takePages 0 1 gen 1 s []
      (match ssWrite r.2 0 ((0x11000, r.1.flatMap (natBytes 4)) :: pageWrites r.2 0 gen r.1 []) with | .done _ => true | _ => false) = true)) := by
  refine ⟨?_, ?_, ?_, ?_, ?_, ?_⟩ <;> decide +kernel

/-- A decode step of stream 0 over version 0 of graph 1, whose one node has ended; its verdict accepts no draft and yields one token. -/
def entry0 : StepEntry := { stream := 0, d := 4, need := 5, recs := 6, decode := true, specGen := 0, position := 0 }
def step0 : Step := { graph := 1, ver := 0, descriptor := 0x400000, table := 0x401000, entries := [entry0], nodes := [(0, 0)] }
def verdict0 : Verdict := { k := 0, count := 1, ndraft := 0, tokens := [(11, 0)], drafts := [] }
def partStep (y : Step) (x : Stream) : Part := { partStr [(0, x)] with str := { (partStr [(0, x)]).str with steps := [(0, y)], nextStep := 1 } }
theorem wit_Verdicts :
    let x : Stream := { stream with state := .scheduled, promptLen := 0, stop0 := 1, stop1 := 2 }
    let s : State := { mach with parts := [(0, partStep step0 x)], mem := [(0x401001, 1#8)] }
    let t : State := { mach with parts := [(0, partStep { step0 with sent := true, verdicts := [verdict0] } x)] }
    (stepOf s 0 0 = some step0 ∧ gversionOf (partOf s 0) 1 0 = some genVersion ∧ genVersion.gen = some gen ∧ step0.nodes.length = genVersion.opcs.length ∧
      runStatus 1 step0.nodes = 0 ∧ (engineRead s .ss ownWork 0 step0.table 256 []).2 = .ok (0#8 :: 1#8 :: List.replicate 254 0#8) ∧ (partOf s 0).ctx.state = .active ∧
      verdictLegal x entry0 verdict0 = true ∧ verdictLegal x entry0 { verdict0 with k := 5, count := 6 } = false ∧ (streamOf s 0 0).cancelling = false ∧ (streamOf s 0 0).replayStop = none) ∧
    (stepItems { step0 with sent := true, verdicts := [verdict0] }).length = 1 ∧
    (tabGet none (partOf t 0).str.replays 0 = none ∧ (streamOf t 0 0).state = .scheduled ∧ entry0.decode = true ∧ verdict0.count = verdict0.k + 1 ∧
      verdict0.count ≤ verdict0.tokens.length ∧ (∀ z ∈ verdict0.tokens.take verdict0.count, z.1 ≠ x.stop0 ∧ z.1 ≠ x.stop1) ∧
      entry0.position + verdict0.k + 1 ≠ x.limit ∧ (partOf t 0).str.handoff = [] ∧ (partOf t 0).ctx.state = .active ∧ (partOf t 0).vd.front = true ∧
      (streamOf t 0 0).pausing = false ∧ (ringOf t 0 x.ring).asks = []) := by decide +kernel

/-- Rings of 2^8 and 2^20 records; a consumer count at P and one beyond it. -/
def ringCmd (l : Nat) : Cmd := cmd 0x20 [0, 0, BitVec.ofNat 64 (1 + l * 256), 0x40000#64, 0x48000#64, 0x48008#64]
theorem wit_OutputRings :
    (let s := machQ 1 [ringCmd 8] (partStr [])
     startedCmd s 0 1 0 0x20 = some (ringCmd 8) ∧ bits (cmdWord (ringCmd 8) 16) 5 0 = 1 ∧ bits (cmdWord (ringCmd 8) 16) 12 8 = 8 ∧ bits (cmdWord (ringCmd 20) 16) 12 8 ≤ 20 ∧
     hostSpan (partOf s 0) 0x40000 (32 * 2 ^ 8) true = true ∧ hostSpan (partOf s 0) 0x48000 8 true = true ∧ hostSpan (partOf s 0) 0x48008 8 false = true ∧
     (ringOf s 0 1).created = false ∧ (ringOf s 0 0).created = true) ∧
    (let s := machQ 1 [cmd 0x21 [0, 0, 0, 0]] (partStr [(0, stream)])
     (startedCmd s 0 1 0 0x21).isSome = true ∧ (∃ x ∈ ([(0, (1, 9))] : List (Nat × Nat × Nat)), x.2.1 = 0 + 1) ∧ ∃ x ∈ (partOf s 0).str.streams, x.2.state ≠ .free ∧ x.2.ring = 0) ∧
    (let r : Ring := { ringOf { mach with parts := [(0, partStr [])] } 0 0 with p := 255, waiting := [(0, 1, List.replicate 32 0#8)] }
     let s : State := { mach with parts := [(0, { partStr [] with str := { rings := [(0, r)] } })] }
     ringOf s 0 0 = r ∧ (partOf s 0).vd.front = true ∧ streamsRun (partOf s 0) = true ∧ r.p < r.c + 2 ^ r.log2 ∧ r.c ≤ r.p ∧ r.p < r.pj + 2 ^ r.log2 ∧ isDurable (partOf s 0) 0 = false ∧
     (hostReady s 0 [(r.base + 32 * (r.p % 2 ^ r.log2), 32), (r.pidxAddr, 8)]).2 = none ∧ (hostReady s 0 [(r.base + 32 * (r.p % 2 ^ r.log2), 32), (r.pidxAddr, 8)]).1.hostOut = [] ∧
     portUsable s 0 0 = true ∧ translate s 0 (r.base + 32 * (r.p % 2 ^ r.log2)) true = .host 0x101FE0 false 0 ∧
     translate s 0 r.pidxAddr true = .host 0x108000 false 0 ∧ (portOf s (portFor s ((hostFunc s 0).getD 0))).waiting = [] ∧
     logBytes (portOf s (portFor s ((hostFunc s 0).getD 0))).log + 32 + 9 ≤ logSize ∧ (r.c ≤ (255#64).toNat ∧ (255#64).toNat ≤ r.p) ∧ r.p < (256#64).toNat) := by decide +kernel

theorem wit_Replay :
    let s : State := { mach with parts := [(0, { partStr [(0, { stream with state := .faulted })] with ctx := { tag := 1, state := .recovering }, vd := { part.vd with front := false }, journal := { home := [item 1] } })] }
    ((partOf s 0).ctx.state = .recovering ∧ (partOf s 0).vd.preparing = none ∧ (partOf s 0).str.replayOn = false ∧ (partOf s 0).vd.front = false ∧ lostItems s 0 = [] ∧
      (partOf s 0).journal.home = [item 1] ∧ (item 1).typ = 1 ∧ (streamOf s 0 0).state ≠ .free) ∧
    (∃ p : Part, p.str.replayOn = true ∧ p.ctx.state = .recovering ∧ p.str.streams = []) := by
  exact ⟨by decide +kernel, { ctx := { state := .recovering }, str := { replayOn := true } }, rfl, rfl, rfl⟩

/-- A read-only shared range with a backing source, its first line poisoned. -/
def backRange : Range := { range with w := false, backing := 1, backAddr := 0x5000 }
theorem wit_MemoryRepair :
    (let s : State := { mach with parts := [(0, { part with ranges := [backRange] })], lmeta := [(0, freshMeta ||| 1#16)] }
     isStack 0 = true ∧ repairDue s 0 0 = some 0x5000 ∧ partsMapping s 0 = [0] ∧ (partOf s 0).ctx.state = .active) ∧
    (let s (k : Nat) : State := { mach with chans := [(0, { trained := true, triggers := [(3, 7)], spares := [(3, k)] })] }
     repairable (s 1) 0 = true ∧ (chanOf (s 1) 0).triggers.contains (3, 7) = true ∧ tabGet 0 (chanOf (s 1) 0).spares 3 < 2 ∧
     (chanOf (s 2) 0).retired.contains 32767 = false ∧ (∃ x ∈ (chanOf (s 2) 0).triggers, 2 ≤ tabGet 0 (chanOf (s 2) 0).spares x.1) ∧
     ownerOf (s 2) (chanPa 0) = some 0 ∧ pageInUse (s 2) 0 0 0 = true ∧ (∃ pa, freePage (s 2) 0 = some pa ∧ chanPa 0 + 65536 ≤ pa) ∧ (chanOf (s 2) 0).redirect = [] ∧
     ownerOf { s 2 with slices := [] } (chanPa 0) = none ∧ repairable { s 2 with slices := [] } 0 = true) := by
  refine ⟨?_, ?_, ?_, ?_, ?_, ?_, ?_, ?_,
    ⟨0x10000, ?_, by decide⟩, ?_, ?_, ?_⟩ <;> decide +kernel

theorem wit_PatrolAndChannelSlots :
    (isStack 0 = true ∧ repairable mach 0 = true ∧ lineErrs [] 0 = [] ∧ badBytes (lineErrs [(0, 1#8)] 0) = 1 ∧
      badBytes (lineErrs [(0, 1#8), (1, 1#8), (2, 1#8), (3, 1#8), (4, 1#8), (5, 1#8)] 0) = 6 ∧ (chanOf mach 0).trained = true ∧
      (∀ ok, rangeAt { mach with parts := [] } (clusterPa 0 + 64 * 0) ok = none) ∧ (coreOf mach 0).mode ≠ .running) ∧
    (let r : ChanReq := { cls := 7, lines := 1 }
     let c : Chan := { trained := true, reqs := [r] }
     c.halfRate = false ∧ c.reqs = [r] ∧ r.lines ≤ 1 ∧ r.cls < 8 ∧ ({ c with halfRate := true } : Chan).slot = false) := by
  refine ⟨⟨by decide, by decide +kernel, by decide, by decide, by decide, by decide, fun _ => rfl, by decide⟩, by decide⟩

/-- The PF's queue 5 with a SELFTEST of cluster 1 or a MARGIN of channel 0. -/
def machTest (opc : Nat) (stage : Nat) (sl : List (Nat × Slice)) : State :=
  { slices := sl, parts := [(64, { queues := [(5, queue [{ cmd opc [0, 0, BitVec.ofNat 64 (if opc = 0x62 then 256 else 0), 0] with ctx := 0, moved := stage }])] })] }
theorem wit_SliceMaintenance :
    (∃ x : Slice, x.state = .releasing) ∧ (∃ x : Slice, x.state = .scrubbing ∧ x.ret = false) ∧
    (let s := machTest 0x62 0 []
     (startedCmd s 64 5 0 0x62).isSome = true ∧ testSlice (cmd 0x62 [0, 0, 256#64, 0]) = 1 ∧ (sliceOf s 1).state = .free ∧ (sliceOf s 1).pending = false) ∧
    (let s := machTest 0x63 0 []
     (startedCmd s 64 5 0 0x63).isSome = true ∧ testSlice (cmd 0x63 [0, 0, 0, 0]) = 64 ∧ (chanOf s 0).triggers = []) ∧
    (let s := machTest 0x62 0 [(1, { state := .assigned, owner := 3 })]
     (sliceOf s 1).state = .assigned ∧ takeRefused s 3 1 = true) ∧
    (let s := machTest 0x62 3 [(1, { state := .held, testing := true })]
     (inTest s 0x62).map testSlice = some 1 ∧ (sliceOf s 1).state = .held) ∧
    (let s : State := { chans := [(0, { margining := true, retirePending := true })], slices := [(64, { state := .held })] }
     (chanOf s 0).margining = true ∧ (sliceOf s 64).state = .held ∧ (chanOf s 0).retirePending = true ∧ (sliceOf { s with slices := [] } 64).state = .free) := by
  refine ⟨⟨{ state := .releasing }, rfl⟩, ⟨{ state := .scrubbing }, rfl, rfl⟩, ?_, ?_, ?_, ?_, ?_⟩ <;> decide +kernel

def errRec : ErrRec := { cls := 1, severity := 1, code := 1, status := 0, rseq := 0, time := 0, modId := 0, ctx := 0, vdid := 0, utype := 0, uindex := 0, part := none, cmd := none,
                         detail := [], count := 1 }
def wait (a b : Nat) : WaitEdge := { kind := 0, waiter := a, inst := 0, waitsFor := [b] }
theorem wit_ErrorReports :
    (∃ e : Err, e.folds = [errRec]) ∧
    (let s : State := { err := { pidx := 4, cidx := 2 } }
     let gone (v : Nat) : Nat := (v + 2 ^ 32 - s.err.cidx) % 2 ^ 32
     gone 4 ≤ (s.err.pidx + 2 ^ 32 - s.err.cidx) % 2 ^ 32 ∧ (s.err.pidx + 2 ^ 32 - s.err.cidx) % 2 ^ 32 < gone 5) ∧
    ((partOf mach 0).vd.used = true ∧ (partOf mach 0).ctx.state = .active) ∧
    (let ms := (List.range 5).map (fun i => { rank := i, modId := i, compute := 1, memory := 1, partner := 0, partnerValid := false : Member })
     let l := [wait 1 2, wait 2 1]
     let s : State := { parts := [(0, { part with vd := { part.vd with members := ms } })], err := { prevSweep := [(1, l)] } }
     partOfVdid s 1 = some 0 ∧ isArbiter (partOf s 0).vd = true ∧ 4 < (partOf s 0).vd.members.length ∧
     waitCycle (l.filter (fun e => (tabGet [] s.err.prevSweep 1).any (fun x => x.kind == e.kind && x.waiter == e.waiter && x.inst == e.inst))) ≠ [] ∧
     waitCycle ([wait 1 2].filter (fun e => (tabGet [] s.err.prevSweep 1).any (fun x => x.kind == e.kind && x.waiter == e.waiter && x.inst == e.inst))) = []) ∧
    (∃ e : Err, e.dumpValid = false ∧ e.failing = some 1) ∧ (∃ e : Err, e.dumpValid = true) := by
  exact ⟨⟨{ folds := [errRec] }, rfl⟩, by decide, by decide, by decide +kernel, ⟨{ failing := some 1 }, rfl, rfl⟩, ⟨{ dumpValid := true }, rfl⟩⟩

theorem wit_PartFailures :
    let m (r i : Nat) : Member := { rank := r, modId := i, compute := 1, memory := 1, partner := 0, partnerValid := false }
    let s : State := { mach with parts := [(0, { part with vd := { part.vd with members := [m 0 0, m 1 7] } })] }
    (s.err.failing = none ∧ livePartsOf s = [0] ∧ (partOf s 0).ctx.state = .active ∧ partOfVdid s 1 = some 0 ∧ 7 ≠ s.glb.moduleId ∧ 2 ≤ (partOf s 0).vd.members.length ∧
      (partOf s 0).vd.members.find? (fun x => x.rank == 1) = some (m 1 7) ∧ (chanOf s 0).trained = true) ∧
    (∀ i, i < 32 → (chanOf { mach with chans := [] } (32 * 11 + i)).trained = false) ∧
    (let r : State := { mach with parts := [(0, { part with ranges := [range], ctx := { state := .recovering } })] }
     isArbiter (partOf r 0).vd = true ∧ lostRanges r 0 = []) ∧
    (let r : State := { mach with parts := [(0, { part with ranges := [range], ctx := { state := .recovering } })], slices := [(0, { state := .assigned }), (64, { state := .held, ret := true }), (65, { state := .assigned })] }
     lostRanges r 0 = [range] ∧ (chooseExtent r 0 0 ((placeSlices r 0).filter (fun g => !(heldChans r 0).contains g)) range.n (range.len / range.n)).isSome = true) := by
  decide +kernel

theorem wit_Replay_passed :
    let s : State := { mach with parts := [(0, { partStr [(0, { stream with state := .done })] with ctx := { tag := 1, state := .recovering }, str := { (partStr [(0, { stream with state := .done })]).str with replayOn := true } })] }
    (partOf s 0).str.replayOn = true ∧ (partOf s 0).str.streams.length = 1 ∧ (∀ x ∈ (partOf s 0).str.streams, replayPassed s 0 x.1 x.2 = true) := by decide +kernel

theorem wit_MemoryRepair_page :
    let s : State := { mach with chans := [(0, { trained := true, triggers := [(3, 7)], spares := [(3, 2)] })] }
    (∃ x ∈ (chanOf s 0).triggers, x.2 / 512 = 0 ∧ 2 ≤ tabGet 0 (chanOf s 0).spares x.1) ∧ pageMoving s 0 0 = false ∧ cacheTrue s ∧
    (∀ h, ∀ x ∈ (chanOf s h).redirect, x.2 ≠ chanPa 0 + 0 * 65536) := by
  refine ⟨by decide +kernel, by decide +kernel, by simp [cacheTrue, mach, tabGet], ?_⟩
  intro h x hx
  by_cases e : h = 0 <;> simp [chanOf, tabGet, e] at hx

theorem wit_PatrolAndChannelSlots_core :
    let s := machCore core grid
    tabGet none s.cache 0 = none ∧ (coreOf s 0).mode = .running ∧ (partOf s (coreOf s 0).part).ctx.state = .active ∧ ownerOf s (chanPa 0) = some 0 ∧
    (∃ c : Chan, c.trained = true ∧ c.halfRate = true ∧ c.slot = false) ∧ 1 ≤ badBytes (lineErrs [(0, 1#8), (1, 1#8), (2, 1#8)] 0) ∧ 3 ≤ badBytes (lineErrs [(0, 1#8), (1, 1#8), (2, 1#8)] 0) := by
  refine ⟨by decide, by decide, by decide, by decide, ⟨{ trained := true, halfRate := true }, rfl, rfl, rfl⟩, by decide, by decide⟩

theorem wit_SliceMaintenance_waits :
    (let s : State := { slices := [(1, { state := .releasing })], cores := [(16, core)] }
     (sliceOf s 1).state = .releasing ∧ sliceIdle s 1 = false) ∧
    (let s : State := { slices := [(64, { state := .scrubbing, owner := 3, ret := true })] }
     (sliceOf s 64).state = .scrubbing ∧ s.atl.releasing = none ∧ (partOf s 3).vd.released = false) ∧
    (let s := machTest 0x62 0 [(1, { pending := true })]
     (startedCmd s 64 5 0 0x62).isSome = true ∧ (sliceOf s 1).state = .free ∧ (sliceOf s 1).pending = true) ∧
    (let s := machTest 0x62 0 [(1, { state := .scrubbing })]
     (startedCmd s 64 5 0 0x62).isSome = true ∧ (sliceOf s 1).state = .scrubbing) ∧
    ((List.replicate 72 (30, 35)).length = 72 ∧ (∀ e ∈ List.replicate 72 (30, 35), 30 ≤ e.1 ∧ 35 ≤ e.2) ∧ (∃ e ∈ (30, 34) :: List.replicate 71 (30, 35), e.1 < 30 ∨ e.2 < 35)) := by
  refine ⟨by decide +kernel, by decide +kernel, by decide +kernel, by decide +kernel, by decide, by decide, (30, 34), by simp, .inr (by decide)⟩

/-- A composition descriptor of this module: VDID, clusters, channels, guarantees of classes 0 to 3; port A. -/
def desc (vdid compute memory guar : Nat) : List W64 :=
  [BitVec.ofNat 64 (2 ^ 60 + 1), BitVec.ofNat 64 vdid, 0, 0, 0, 0, 0, 0, BitVec.ofNat 64 (2 ^ 41), BitVec.ofNat 64 compute, BitVec.ofNat 64 memory,
    0, 0, 0, 0, 0, 0, 0, BitVec.ofNat 64 guar, 0, 0, 0, 0, 0]
def twoChans : Tab Chan := [(0, { trained := true }), (1, { trained := true })]
def bare (op : Nat) : State := { chans := twoChans, atl := { go := true, op := op } }
def live (op : Nat) : State := { mach with chans := twoChans, atl := { go := true, op := op } }
/-- The same with two clusters and two channels, of which the second ones are to leave. -/
def liveTwo (op : Nat) (leaving : List Nat) : State :=
  { live op with
    slices := [(0, { state := .assigned }), (1, { state := .assigned }), (64, { state := .assigned }), (65, { state := .assigned })]
    parts := [(0, { part with vd := { part.vd with leaving := leaving, members := part.vd.members.map (fun m => { m with compute := 2, memory := 2 }) } })] }

theorem wit_Composition_refusals :
    [1, 2, 3, 4, 5].all (fun op => descError op [] == some 0xFFFF) = true ∧
    [2, 3, 4, 5].all (fun op => descError op (desc 9 0 0 0) == none && (frontFor (live op) (descVdid (desc 9 0 0 0))).isOk == false) = true ∧
    (descError 1 (desc 0 3 1 0) = none ∧ createRefused { bare 1 with slices := [(1, { state := .held })] } (descEntries (desc 0 3 1 0)) = some (1, 0)) ∧
    (∃ a : Atl, a.creating = some (desc 0 1 1 0, [7])) ∧
    reserveRefused { bare 0 with slices := [(0, { pending := true })] } 0 0 [0, 64] [] = some 1 ∧ reserveRefused (bare 0) 0 0 [0, 64] [] = none := by
  refine ⟨?_, ?_, ?_, ⟨{ creating := some (desc 0 1 1 0, [7]) }, rfl⟩, ?_, ?_⟩ <;> decide +kernel
theorem wit_Composition_create : descError 1 (desc 0 1 1 0) = none ∧ createRefused (bare 1) (descEntries (desc 0 1 1 0)) = none ∧
    (descEntries (desc 0 1 1 0)).length = 1 ∧ freePart (bare 1) = some 0 ∧ (bare 1).glb.idValid = false ∧ (bare 1).atl.given = 0 := by decide +kernel
/-- Two channels, each full; the second is to leave. `ms` are further members. -/
def fullTwo (ms : List Member) : State :=
  let p := partOf (liveTwo 3 []) 0
  let big : Range := { range with len := chanPages, offset := 0 }
  { liveTwo 3 [] with parts := [(0, { p with
    vd := { p.vd with members := p.vd.members ++ ms }
    ranges := [{ big with base := 0x100000, targets := [(0, false, 0)] }, { big with base := 0x200000, targets := [(0, false, 1)] }] })] }
theorem wit_Composition_room : let es := descEntries (desc 1 2 2 0)
    shrinkRefused (fullTwo []) 0 es = none ∧ (shrinkRoom (fullTwo []) 0 es).2 = some false ∧
    (shrinkRoom (fullTwo [{ rank := 1, modId := 7, compute := 1, memory := 1, partner := 0, partnerValid := false }]) 0 es).2 = none := by decide +kernel
theorem wit_Composition_change :
    (frontFor (live 2) 1).toOption = some 0 ∧ isArbiter (partOf (live 2) 0).vd = true ∧ (partOf (live 2) 0).vd.preparing = none ∧
    (descEntries (desc 1 2 2 0)).length = 1 ∧ (∀ e ∈ descEntries (desc 1 2 2 0), e.modId = 0) ∧ (∃ m ∈ (partOf (live 2) 0).vd.members, m.modId = 0) ∧
    (descError 2 (desc 1 2 2 0) = none ∧ growRefused (live 2) 0 (descEntries (desc 1 2 2 0)) = none) ∧
    ((frontFor (liveTwo 3 []) 1).toOption = some 0 ∧ descError 3 (desc 1 2 2 0) = none ∧ shrinkRefused (liveTwo 3 []) 0 (descEntries (desc 1 2 2 0)) = none ∧
      (shrinkRoom (liveTwo 3 []) 0 (descEntries (desc 1 2 2 0))).2 = some true) ∧
    (leavingClear (liveTwo 3 [1, 65]) 0 = true ∧ (liveTwo 3 [1, 65]).atl.clearing = [] ∧ (partOf (liveTwo 3 [1, 65]) 0).str.handoff = []) ∧
    (descError 5 (desc 1 0 0 4) = none ∧ ∀ e ∈ descEntries (desc 1 0 0 4), e.partnerValid = false ∧
      admitted (live 5) { e with memory := maskOf (memSlices (live 5) 0), links := maskOf ((assignedOf (live 5) 0 isLink).map (· - 448)) } = true) ∧
    (descError 4 (desc 1 0 0 0) = none ∧ (partOf (live 4) 0).ctx.state ≠ .none ∧ otherMembers (live 4) 0 = [] ∧ (partOf (live 4) 0).vf.moved = false ∧
      (sliceOf (live 4) 0).state = .assigned ∧ (sliceOf (live 4) 0).owner = 0) := by decide +kernel

def memb (r i : Nat) : Member := { rank := r, modId := i, compute := 1, memory := 1, partner := 0, partnerValid := false }
/-- A virtual device of this module and module 7, here the arbiter or not. -/
def pair (vd : Vd → Vd) : State := { mach with glb := { mach.glb with idValid := true }, parts := [(0, { part with vd := vd { part.vd with members := [memb 0 0, memb 1 7] } })] }
def pkt (edition : Nat) : Packet := { pver := 3, kind := 0, maddr := false, ret := 0, dst := 0, src := 7, vdid := 1, ttl := 64, edition := edition, dtask := 0, cseq := 0, operand := 0, payload := [] }
theorem wit_Editions :
    (partOfVdid (pair id) 1 = some 0 ∧ (partOf (pair id) 0).vd.preparing = none ∧ (partOf (pair id) 0).vd.heldPkts = []) ∧
    (let s := pair (fun v => { v with preparing := some (2, [], .other) })
     (partOf s 0).vd.preparing = some (2, [], .other) ∧ (partOf s 0).vd.queued = []) ∧
    (let s := pair (fun v => { v with preparing := some (2, [7], .other) })
     partOfVdid s 1 = some 0 ∧ (partOf s 0).vd.preparing = some (2, [7], .other)) ∧
    (let s := pair (fun v => { v with members := [memb 0 7, memb 1 0], rank := 1 })
     partOfVdid s 1 = some 0 ∧ arbiterModule (partOf s 0).vd = 7 ∧ 7 ≠ s.glb.moduleId) ∧
    (let s := { mach with slices := [(0, { state := .assigned }), (64, { state := .free, ret := true })] }
     let r := { s with parts := [] }
     (sliceOf s 64).state = .free ∧ (sliceOf s 64).ret = true ∧ (sliceOf s 64).owner = 0 ∧ (partOf s 0).vd.released = false ∧ (partOf s 0).vd.used = true ∧
     isArbiter (partOf s 0).vd = true ∧ (partOf r (sliceOf r 64).owner).vd.used = false) ∧
    livePartsOf mach = [0] ∧ memSlices mach 0 = [0] := by decide +kernel

theorem wit_Handoff :
    let s (h : List (Nat × Nat × Nat × Bool)) : State := { pair id with parts := [(0, { partOf (pair id) 0 with str := { handoff := h } })] }
    (partOfVdid (s []) 1 = some 0 ∧ (s []).glb.moduleId = 0 ∧ editionLater (tabGet (0, 0) (partOf (s []) 0).str.tokens 3).1 2 = false) ∧
    ((partOf (s [(3, 2, 7, true)]) 0).str.handoff.contains (3, 2, 7, true) = true ∧ (partOf (s [(3, 2, 7, true)]) 0).vd.partnerValid = false) ∧
    (partOf (s [(3, 2, 0, true)]) 0).str.handoff.contains (3, 2, 0, true) = true ∧
    (isArbiter (partOf (s []) 0).vd = true ∧ (partOf (s []) 0).vd.preparing = none ∧ (partOf (s []) 0).str.handoff = [] ∧ lostItems (s []) 0 = [] ∧
      ∃ m ∈ (partOf (s []) 0).vd.members, m.present = true ∧ m.modId = 7) := by decide +kernel

/-- Link 23 UP with full credits, and one DOWN. -/
def linkOn : Link := { state := 2, rev := 3, width := 16, keyed := true, spareOk := true, credits := [(0, 16), (1, 384), (2, 384), (3, 768)], recal := 15, spareLane := 16 }
def fabState (l : Link) (out : List Packet) : State :=
  { links := [(23, l)], glb := { idValid := true }, fab := { rtMember := [(7, 0x80800000#32)], out := out } }
def outPkt : Packet := { pkt 1 with dst := 7, src := 0, payload := List.replicate 192 1#8 }
def trained (reason bad : Nat) : TrainResult := { reason := reason, peerRev := 3, badLanes := BitVec.ofNat 17 bad, peerLink := 0, peerId := some 7, peerOpen := false, identityOk := true, rtts := [400] }
theorem wit_Links :
    (∀ bad ∈ [0, 0xFF, 1], trainReason {} bad (trained 0 bad) = 0) ∧ trainReason {} 0x1FF (trained 0 0x1FF) = 9 ∧ trainReason {} 0 (trained 3 0) = 3 ∧
    (∃ l : Link, l.state = 1 ∧ l.disable = false) ∧
    (linkUp linkOn = true ∧ linkOn.keyed = true ∧ linkOn.txFrames / 2 ^ 31 = linkOn.txEpoch) ∧
    ({ linkOn with resend := [{ idleFlit with ft := 1, lseq := 4095 }] } : Link).resend ≠ [] ∧
    (linkOn.resend = [] ∧ linkOn.lanes = [] ∧ pickVc (fabState linkOn []) 23 = none) ∧
    (let l : Link := { linkOn with egress := [(1, [outPkt])], nextTx := 4095 }
     let s := fabState l []
     linkOf s 23 = l ∧ l.replay.length < 512 ∧ pickVc s 23 = some 1 ∧ tabGet [] l.egress 1 = [outPkt] ∧ tabGet 0 l.cut 1 = 0 ∧ readyFor s 23 1 = [] ∧ (packetBytes outPkt).length ≤ 240) ∧
    (let l : Link := { linkOn with lastRx := 4095, rxbuf := [(1, [3#8])], occ := [(1, 383)] }
     let f : Flit := { idleFlit with ft := 1, vc := 1 }
     linkUp l = true ∧ l.keyed = true ∧ f.lseq = (l.lastRx + 1) % 4096 ∧ keyUse l f.keysel = .current ∧ tabGet 0 l.occ f.vc < vcBuffer f.vc ∧ tabGet [] l.rxbuf f.vc ≠ []) ∧
    (let l : Link := { linkOn with nakFrom := some 4095 }
     l.nakFrom = some 4095 ∧ linkUp l = true) ∧
    (let l : Link := { linkOn with txFrames := 2 ^ 31 }
     l.txEpoch < l.txFrames / 2 ^ 31 ∧ linkUp l = true) ∧
    (let l : Link := { linkOn with oldKey := true, rxSince := 4096 }
     l.oldKey = true ∧ 4096 ≤ l.rxSince) ∧
    (linkOn.state = 2 ∧ linkOn.spareOk = true) ∧
    (bitOf linkOn.bad 15 = false ∧ badCount linkOn.rev (linkOn.bad + 2 ^ 15) ≤ 8 ∧ linkOn.laneMap.idxOf? 15 = some 15) ∧
    (let l : Link := { linkOn with spareOk := false, bad := 1 }
     bitOf l.bad 16 = false ∧ badCount l.rev (l.bad + 2 ^ 16) ≤ 8 ∧ l.spareOk = false ∧ l.disable = false) := by
  refine ⟨?_, ?_, ?_, ⟨{ state := 1 }, rfl, rfl⟩, ?_, ?_, ?_, ?_,
    ?_, ?_, ?_, ?_, ?_, ?_, ?_⟩ <;> decide +kernel

theorem wit_FabricRoles :
    let s := fabState linkOn []
    let r : State := { s with fab := { rootValid := true, rootId := 5 }, glb := { idValid := true, moduleId := 5 } }
    (linkOf s 23).state = 2 ∧ ({} : Fabric).claiming = false ∧ bits (0x3FFFF#32).toNat 19 0 < 2 ^ 18 ∧
    (isRoot r = true ∧ 4 < r.glb.moduleId ∧ r.glb.moduleId < 6 ∧ r.fab.collected = false ∧ r.fab.asks = [] ∧ r.atl.creating = none) ∧
    (isRoot s = false ∧ s.fab.rootValid = false ∧ (∀ a ∈ [0, 7], s.glb.moduleId ≤ a) ∧
      ∃ a ∈ [4], a < ({ s with glb := r.glb } : State).glb.moduleId ∧ isRoot { s with glb := r.glb } = false) ∧
    (∃ f : Fabric, f.claiming = true ∧ f.conflict = true) ∧ (∃ f : Fabric, f.claiming = true ∧ f.conflict = false ∧ f.modidReg = 5) ∧
    (livePartsOf s = [] ∧ (mach.fab.serials.contains (7, 3) = false) ∧ partOfVdid mach 1 = some 0 ∧ (partOf mach 0).ctx.state = .active) := by
  refine ⟨?_, rfl, by decide, ?_, ?_, ⟨{ claiming := true, conflict := true }, rfl, rfl⟩,
    ⟨{ claiming := true, modidReg := 5 }, rfl, rfl, rfl⟩, ?_⟩ <;> decide +kernel

/-- Packets of every kind of arrival, at the bounds of the hop count and of the editions. -/
theorem wit_FabricPackets :
    let s : State := { pair id with links := [(23, linkOn)] }
    (linkUp (linkOf s 23) = true ∧ s.glb.idValid = true ∧ isFlood (pkt 1) = false ∧ (pkt 1).pver = 3) ∧
    ({ pkt 1 with dst := 7, ttl := 2 } : Packet).dst ≠ s.glb.moduleId ∧
    ((pkt 1).dst = s.glb.moduleId ∧ (pkt 1).ret = 0 ∧ (pkt 1).maddr = false ∧ partOfVdid s 9 = none ∧ partOfVdid s (pkt 1).vdid = some 0) ∧
    (behindBounce s 0 (pkt 2) = false ∧ pkt 2 ∉ (partOf s 0).vd.heldPkts ∧ (pkt 2).edition = ((partOf s 0).vd.edition + 1) % 2 ^ 32 ∧
      ((pkt 2).edition + 1) % 2 ^ 32 ≠ (partOf s 0).vd.edition) ∧
    (behindBounce s 0 (pkt 0) = false ∧ (pkt 0).edition ≠ (partOf s 0).vd.edition ∧ (partOf s 0).vd.overlap = false) ∧
    (({ pkt 1 with ret := 4 } : Packet).ret ≠ 0 ∧ ({ pkt 1 with ret := 4 } : Packet).ret ≠ 1) ∧
    (7 ≠ s.glb.moduleId ∧ livePartsOf s = [0]) := by decide +kernel

/-- A partition whose VF is on both ports, active on A, its mailbox and a switch due. -/
def dual (f : Vf → Vf) (b : Nat) (m : Mbx) : State :=
  { mach with parts := [(0, { part with vf := f { part.vf with exposedB := true } })], ports := [(0, { link := 2, enabled := true }), (1, { link := b, enabled := true })],
              glb := { mbx := [(0, m)] } }
theorem wit_HostPorts :
    ((portOf mach 0).link = 2 ∧ (portOf mach 0).flush = none ∧ (partOf mach 0).vd.used = true) ∧
    (∃ p : Port, p.flush = some 1 ∧ p.waiting = []) ∧
    (let s := dual (fun v => { v with switchReq := true }) 2 {}
     (partOf s 0).vf.switchReq = true ∧ portUsable s 0 (1 - b2n (partOf s 0).vf.active) = true) ∧
    (let s := dual (fun v => { v with switchReq := true }) 0 {}
     (partOf s 0).vf.switchReq = true ∧ portUsable s 0 (1 - b2n (partOf s 0).vf.active) = false) ∧
    (livePartsOf (dual id 2 {}) = [0] ∧ b2n (partOf (dual id 2 {}) 0).vf.active = 0 ∧ portUsable (dual id 2 {}) 0 1 = true ∧ portUsable (dual id 0 {}) 0 1 = false) ∧
    (let s := dual (fun v => { v with noPort := true }) 0 {}
     (partOf s 0).vf.noPort = true ∧ (partOf s 0).ctx.state = .active) ∧
    (∀ gen ∈ [4, 7], 4 ≤ gen ∧ gen ≤ 7) ∧ (dual id 2 { len := 256 }).glb.mbx = [(0, { len := 256 })] ∧
    (tabGet {} (dual id 2 { send := true }).glb.mbx 0).send = true := by
  refine ⟨?_, ⟨{ flush := some 1 }, rfl, rfl⟩, ?_, ?_, ?_, ?_,
    by decide, rfl, rfl⟩ <;> decide +kernel

/-- An interface with an open session, in each state. -/
def tdiState (t : Tdi) : State := { mach with parts := [(0, { part with vf := { part.vf with tdi := t } })], sec := { mach.sec with sessions := [(0, { state := 5, keyGen := 1 })] } }
theorem wit_Interfaces :
    (∀ t ∈ [Tdi.unlocked, Tdi.locked, Tdi.run, Tdi.error], tdiThere (tdiState t) 0 = true ∧ (partOf (tdiState t) 0).vf.tdi = t) ∧
    (tdiState .unlocked).sec.quarantine = false ∧ storeReads mach = [] ∧ submitted mach = [] ∧
    (let s : State := { mach with parts := [(0, { part with ranges := [{ backRange with backing := 2 }] })], err := { repairs := [(0, 1)] } }
     ∃ pa ∈ storeReads s, Config.storeBuffer pa ≤ Config.storeBuffer pa + 4095 ∧ Config.storeBuffer pa + 4095 < Config.storeBuffer pa + 4096) := by
  refine ⟨?_, ?_, ?_, ?_, 0, ?_, by omega, by omega⟩ <;> decide +kernel

/-- The one-module partition of `mach` with an operation of GLB_MIG_CTL started on it. -/
def mig (op : Nat) (f : Part → Part) : State := { mach with parts := [(0, f part)], glb := { migGo := true, migOp := op } }
def frozenPart (f : Vf → Vf) (p : Part) : Part := { p with ctx := { p.ctx with state := .frozen }, vf := f p.vf }
def im0 (version : Nat) : MigImage := { imageOf mach 0 with version := version, srcVdid := 4, newest := 2 }
theorem wit_Migration :
    (let s := mig 1 id
     freezeWaits s 0 = false ∧ (partOf s 0).vf.tdi = .unlocked ∧ movable s 0 = true ∧ (partOf s 0).ctx.state = .active ∧ (partOf s 0).str.steps = [] ∧ s.glb.migBusy = false) ∧
    movable (mig 1 (fun p => { p with vd := { p.vd with members := [memb 0 0, memb 1 7] } })) 0 = false ∧
    (let s := mig 2 (frozenPart (fun v => { v with migTarget := true }))
     movable s 0 = true ∧ frozen s 0 = true ∧ (partOf s 0).vf.migTarget = true ∧ portUsable s 0 0 = true) ∧
    (let s := mig 3 (fun p => { p with ctx := {} })
     movable s 0 = true ∧ (partOf s 0).ctx.state = .none ∧ restoreFits s 0 (im0 1) = true ∧ restoreFits s 0 (im0 2) = true ∧ restoreFits s 0 { im0 1 with chans := [] } = false) ∧
    (let s := mig 4 (frozenPart id)
     movable s 0 = true ∧ frozen s 0 = true ∧ (partOf s 0).vf.moved = false ∧ (partOf s 0).vf.restored = false) ∧
    (let s := mig 4 (frozenPart (fun v => { v with restored := true, srcVdid := 4 }))
     (partOf s 0).vf.restored = true ∧ ({ s with fab := { rootValid := true } } : State).fab.rootValid = true) ∧
    (let s := mig 5 (frozenPart (fun v => { v with saved := true }))
     frozen s 0 = true ∧ (partOf s 0).vf.saved = true ∧ queuesGone (partOf s 0) = true) := by decide +kernel

/-- An operation of SEC_MBX_CTL started, with its arguments. -/
def mbx (op : Nat) (args : Tab W64) (k : Keys) : State := { mach with parts := [(0, { part with keys := k })], sec := { mach.sec with mbxGo := true, mbxOp := op, mbxArg := args } }
theorem wit_KeyServices :
    (let s := mbx 1 [(0, 1#64)] { newest := 3 }
     partOfVdid s (mbxArg s 0 % 2 ^ 24) = some 0 ∧ (partOf s 0).keys.rotating = none ∧ (partOf s 0).ctx.state = .active ∧ (partOf s 0).keys.older = 0 ∧ keyHolders s 0 = [] ∧
     partOfVdid (mbx 1 [] {}) (mbxArg (mbx 1 [] {}) 0 % 2 ^ 24) = none) ∧
    keyHolders (pair id) 0 = [7] ∧
    (let s := mbx 0 [] { newest := 1, older := 3, sweeping := true }
     (partOf s 0).keys.sweeping = true ∧ frozen s 0 = false ∧ (partOf s 0).keys.sweepLeft = [] ∧ (partOf s 0).keys.rotator = none ∧ (partOf s 0).keys.older ≠ 0) ∧
    (let s := mbx 2 [(2, 16384#64)] {}
     mbxArg s 0 % 64 = 0 ∧ (partOf s 0).vd.used = true ∧ bits (mbxArg s 2) 31 0 ≤ 16384) ∧
    ((mbx 3 [] {}).sec.fallback = false ∧ (mbx 3 [] {}).sec.svnRunning ≤ 64 ∧ ∃ x : Sec, x.fallback = true ∧ x.mbxGo = true ∧ x.mbxOp = 3) ∧
    (let s := mbx 4 [(0, 1#64)] { newest := 3, older := 2 }
     partOfVdid s (mbxArg s 0 % 2 ^ 24) = some 0 ∧ (partOf s 0).keys.newest ≤ 3 ∧ (partOf s 0).keys.older ≤ 3) ∧
    (partOfVdid mach 1 = some 0 ∧ partOfVdid mach 2 = none ∧ 7 ≠ mach.glb.moduleId ∧ mach.sec.zeroised = false) := by
  refine ⟨?_, ?_, ?_, ?_, ⟨by decide, by decide, { fallback := true, mbxGo := true, mbxOp := 3 }, rfl, rfl, rfl⟩,
    ?_, ?_⟩ <;> decide +kernel

/-- A booted Cartouche with session 9 in a state. -/
def spdmState (k : Nat) : State := { glb := { stage := 6 }, sec := { aliasHeld := true, sessions := [(9, { state := k })] } }
theorem wit_SpdmSessions :
    (∀ k ∈ [0, 1, 2, 3, 4, 5], spdmUp (spdmState k) 9 = true ∧ (sessionOf (spdmState k) 9).state = k) ∧ (spdmState 3).sec.aliasHeld = true ∧
    (∀ a, a < 4 → a ∈ [3, 2, 1, 0]) ∧ (∃ a, a < 4 ∧ a ∉ [0, 1, 2]) := by decide +kernel

theorem wit_Alarms :
    (({ converting := true } : Power).converting = true ∧ (3 : Nat) = 3 ∧ ({ a3Count := 2 } : Nonvol).a3Count < 3 ∧ 3 ≤ ({ a3Count := 3 } : Nonvol).a3Count) ∧
    ({} : State).pwr.converting = false ∧ ({} : Nonvol).lifecycle = 2 ∧ secureResident {} = false ∧ debuggable 4 = true ∧ debuggable 31 = true ∧ debuggable 5 = false ∧
    ({} : Sec).quarantine = false := by decide +kernel

/-- A module whose conversion runs, one cluster busy. -/
def clu (x : Cluster) : State := { pwr := { converting := true, pwrEn := true, vin := 5400 }, clusters := [(63, x)] }
theorem wit_PowerControl :
    (({} : Cluster).drooping = none ∧ drains (clu {}) 63 = false) ∧
    (let s : State := { clu {} with pwr := { (clu {}).pwr with junction := 95 } }
     s.pwr.junction ≥ 95 ∧ 600 < clockDue (clusterOf s 63)) ∧
    (let s : State := { clu { rate := 8, clkCur := 601 } with pwr := { (clu {}).pwr with pin := 4001 } }
     (clusterOf s 63).rate = 8 ∧ effectiveCap s.pwr < s.pwr.pin ∧ 600 < clockDue (clusterOf s 63)) ∧
    (48 ≤ ({ rate := 48, clkCur := 1799 } : Cluster).rate ∧ clockDue { rate := 48, clkCur := 1799 } < ({ rate := 48, clkCur := 1799 } : Cluster).clkTarget) ∧
    drains { clu {} with cores := [(1023, { mode := .draining })] } 63 = true ∧ ({ drooping := some 64, rate := 16 } : Cluster).drooping = some 64 ∧
    (clu {}).pwr.converting = true ∧ (clu {}).pwr.lowVin = false ∧ shutdownAt 0 115 = true ∧ shutdownAt 0 114 = false ∧ shutdownAt 1 104 = false ∧
    ({ stage := 6 } : Glb).stage = 6 := by decide +kernel

theorem wit_MeridianTime :
    (({} : Power).slew = 0 ∧ ({} : Power).halfRate = false ∧ ({} : Power).frac < fracUnit) ∧
    (let s (k : Nat) (e : Bool) : State := { fabState linkOn [] with glb := { idValid := true, moduleId := 9 }, fab := { rootValid := true, rootId := 7, rtMember := [(7, 0x80800000#32)] }, pwr := { samples := List.replicate k 10000, everAligned := e } }
     isRoot (s 14 true) = false ∧ (s 14 true).fab.rootValid = true ∧ timeLinked (s 14 true) = true ∧ (routeMask (s 14 true) 7).isSome = true ∧
     (s 14 true).pwr.samples.length + 1 < 16 ∧ (s 15 true).pwr.samples.length + 1 = 16 ∧ (s 15 false).pwr.everAligned = false ∧
     medianInt ((s 15 true).pwr.samples ++ [offsetOf 0 20000 0 0]) ≤ 10000 ∧ -10000 ≤ medianInt ((s 15 true).pwr.samples ++ [offsetOf 0 20000 0 0])) ∧
    (clusterOf { clusters := [(63, { synced := false })] } 63).synced = false ∧ (traceOf {} 3).state = 0 := by decide +kernel

/-- Trace unit 7 in a state, with a ring of 1,024 places that its next record wraps. -/
def tu (x : Trace) : State := { trc := [(7, { x with types := 1#64, parts := 1#64, ring := 0x8000, log2 := if x.log2 = 0 then 10 else x.log2 })] }
theorem wit_CountersAndTrace :
    (partOf mach 0).vd.used = true ∧ traceCaptured (tu {}) 7 63 0 false = false ∧
    (let s := tu { state := 1, pidx := 2 ^ 32 - 1 }
     (traceOf s 7).state = 1 ∧ traceCaptured s 7 0 0 true = true ∧ trcStream (traceOf s 7) = false ∧ trcSel (traceOf s 7) ≠ 1 ∧ (traceOf s 7).staged = [] ∧ (traceOf s 7).gap = 0 ∧
     ∀ v, v < 8 → trcSel (traceOf s v) ≠ 3) ∧
    traceCaptured (tu { state := 3 }) 7 0 0 true = true ∧
    (trcEnable (traceOf (tu { log2 := 24 }) 7) = false ∧ 10 ≤ (traceOf (tu { log2 := 24 }) 7).log2 ∧ (traceOf (tu { log2 := 24 }) 7).log2 ≤ 24 ∧
      24 < (traceOf (tu { log2 := 25 }) 7).log2) ∧
    (∃ x : Trace, x.state = 2 ∧ x.postLeft = 0) := by
  refine ⟨?_, ?_, ?_, ?_, ?_, { state := 2 }, rfl, rfl⟩ <;> decide +kernel

/-- Target 5 with private source 31 and shared source 287 pending, at the same priority. -/
def evcState : State := { evc := [(5, { en := 2 ^ 31, level := 2 ^ 31, prio := 3 * 2 ^ 62 })], evs := [(287, { en := true, level := true, prio := 3, target := 5 })] }
theorem wit_EventController :
    pendingAt evcState 5 = [(3, 31), (3, 287)] ∧ pendingAt evcState 0 = [] ∧
    (let s : State := { evs := [(287, { inService := true, svcTarget := 5 })] }
     (evsOf s 287).inService = true ∧ (evsOf s 287).svcTarget = 5 ∧ (evsOf s 287).svcTarget ≠ 4) ∧
    (evsOf {} 32).secure = false ∧ bitOf (0x80050003#32).toNat 30 = false ∧ bits (0x80050003#32).toNat 18 16 ≤ 5 ∧ maySecure 94 = true ∧ bitOf (0xC0000000#32).toNat 30 = true := by
  decide +kernel

/-- The PF's registers by port A; a 64-bit register half read and half written; an unassigned pair of offsets; the partition's BAR by port A. -/
theorem wit_RegisterAccess :
    viewOf mach 0 0 0 = some (.pf 0) ∧ teeRefuses mach (.pf 0) 0x1208 false = false ∧ viewOf mach 0 1 0 = some (.vf 0 0) ∧
    (regAt mach (.pf 0) 0x20).isSome = true ∧ regAt mach (.pf 0) 0x1320 = none ∧ regAt mach (.pf 0) 0x1324 = none ∧ (0x1320 % 8 = 0) ∧
    regAt mach (.pf 0) 0x8 = some { wide := false, base := 8, value := 0x300 } ∧
    regAt mach (.pf 0) 0x1208 = some { wide := true, base := 0x1208, value := 0 } ∧ regAt mach (.pf 0) 0x120C = some { wide := true, base := 0x1208, value := 0 } ∧
    (let s : State := { mach with half := [(viewKey (.pf 0), some { offset := 0x1208, latched := some 5, heldLow := some 7 })] }
     halfOf s (.pf 0) = some { offset := 0x1208, latched := some 5, heldLow := some 7 }) := by decide +kernel
theorem wit_PatrolPeriod : ({} : Nonvol).lifecycle ≠ 3 ∧ (1 : Nat) < 2 := by decide

/-- Conditions of bring-up at the bounds of VIN. -/
def upState (stage : Nat) : State := { pwr := { converting := true, pwrEn := true, vin := 5400 }, glb := { stage := stage } }
theorem wit_BringUp :
    (4600 ≤ 4600 ∧ 5950 ≤ 5950 ∧ ({} : Power).thermal = false ∧ ({} : Power).converting = false ∧ ({} : Power).pwrEn = false) ∧
    (∃ p : Power, p.thermal = true ∧ p.coldPlate ≤ 70) ∧
    ((upState 4).pwr.modRstLow = false ∧ (upState 4).pwr.converting = true ∧ (upState 4).nv.lifecycle ≠ 3 ∧ (upState 4).glb.stage = 4 ∧ (upState 4).sec.latched = []) ∧
    (({} : Nonvol).slotA.good = true ∧ ({} : Nonvol).svnFused ≤ ({} : Nonvol).slotA.svn) ∧
    (∃ nv : Nonvol, nv.bootB = false ∧ nv.slotB.good = true ∧ nv.svnFused ≤ nv.slotB.svn) ∧
    (∀ k : Nat, k < 12 → bitOf ({ tried := 0 } : Glb).tried k = false) ∧
    (({ tried := 2047 } : Glb).tried + 2 ^ 11 = 4095 ∧ bitOf ({ tried := 2047 } : Glb).tried 11 = false ∧ bitOf ({ failedOnce := 1 } : Glb).failedOnce 0 = true) ∧
    (6 ≤ (upState 6).glb.stage ∧ (upState 6).sec.updating = false ∧ ({} : Nonvol).slotB.good = false ∧ ∃ x : Sec, x.updating = true) := by
  refine ⟨by decide, ⟨{ thermal := true }, rfl, by decide⟩, by decide +kernel, by decide, ⟨{ slotB := {} }, rfl, rfl, by decide⟩, by decide, by decide, ?_⟩
  exact ⟨by decide, rfl, rfl, { updating := true }, rfl⟩

/-- A core that waits for channel 15, and a message on its way to its task. -/
def waitCore (limit : Nat) : Core := { core with sreg := [(5, 0x8000#64)], blocked := .waitmsg 3 0x8000 limit 0 }
theorem wit_Waitmsg :
    (canIssue (gridState coreMsg grid) 0 ∧ (sRead coreMsg 5).toNat = 0x8000 ∧ 0x8000 < 2 ^ 16 ∧ coreMsg.inbox = [] ∧
      (note 0).chan = 15 ∧ (0x8000 : Nat).testBit 15 = true) ∧
    (let s := gridState (waitCore 0) { grid with flight := [note 1] }
     (coreOf s 0).mode = .running ∧ (coreOf s 0).blocked = .waitmsg 3 0x8000 0 0 ∧ (partOf s 0).launches = [(0, { launchOf s 0 0 with flight := [note 1] })] ∧
     (launchOf s 0 0).live = true ∧ (tabGet {} (launchOf s 0 0).tasks (note 1).dst).state = .bound ∧ (tabGet {} (launchOf s 0 0).tasks (note 1).dst).core = 0 ∧
     (launchOf s 0 0).spill = [] ∧ (coreOf s 0).awaitFwd = false) := by
  unfold canIssue; decide +kernel

/-- Reset memory is canonical, and a mailbox service that has started. -/
theorem wit_MemoryStaysCanonical : memCanonical State.reset ∧ ∃ t, step State.reset = .next t := by
  exact ⟨by unfold memCanonical; decide, _, rfl⟩
theorem wit_FusedMinimumAndQueue :
    mbxStarted (mbx 3 [] {}) 3 = true ∧ (mbx 3 [] {}).sec.fallback = false ∧ (mbx 3 [] {}).nv.svnFused ≤ (mbx 3 [] {}).sec.svnRunning ∧
    mbxStarted { sec := { mbxGo := true, mbxOp := 3, fallback := true } } 3 = true ∧
    (upState 4).glb.stage ≠ 6 ∧ (after (execSecureBoot true true (upState 4))).glb.stage = 6 := by decide +kernel

/-- The statements about scalar, vector and frame effects ask only for a core that can issue, and a type of each kind. -/
theorem wit_ScalarArithmetic : canIssue (coreState core) 0 := wit_canIssue
theorem wit_ImmediatesBranchesAndSpecials : canIssue (coreState core) 0 := wit_canIssue
theorem wit_CoreFrame : canIssue (coreState core) 0 := wit_canIssue
theorem wit_VectorElementWise : canIssue (coreState coreVec) 0 ∧ (2 : BitVec 3).toNat ≤ 2 ∧ 3 ≤ (3 : BitVec 3).toNat ∧ (4 : BitVec 3).toNat ≤ 4 := by
  unfold canIssue; decide +kernel
theorem wit_FrontCommand : (coreState core).pending = [] := rfl
theorem wit_ResetState : State.reset.mem = [] := rfl

/-- Composition: a second standby, a slice that a maintenance request took first, the same at a growth, and a lock over two modules. -/
theorem wit_Composition_waits :
    (let s : State := { live 2 with parts := [(0, { part with vd := { part.vd with standbyRank := some 1 } })] }
     let w := BitVec.ofNat 64 (2 ^ 60 + 2) :: (desc 1 2 2 0).drop 1
     let w := w ++ List.replicate (24 - w.length) 0#64 ++ [BitVec.ofNat 64 (7 + 2 ^ 41 + 2 ^ 43)]
     s.atl.creating = none ∧ s.atl.settling = none ∧ descError 2 w = none ∧ secondStandby s (descVdid w) (descEntries w) = some 1) ∧
    (let s : State := { bare 1 with slices := [(0, { asked := true })] }
     s.atl.creating = none ∧ descError 1 (desc 0 1 1 0) = none ∧ behindTest s (ownSlices s (descEntries (desc 0 1 1 0))) = true ∧
     behindTest (bare 1) (ownSlices (bare 1) (descEntries (desc 0 1 1 0))) = false) ∧
    (let s : State := { live 2 with slices := [(0, { state := .assigned }), (64, { state := .assigned }), (1, { asked := true })] }
     s.atl.settling = none ∧ descError 2 (desc 1 2 2 0) = none ∧ secondStandby s (descVdid (desc 1 2 2 0)) (descEntries (desc 1 2 2 0)) = none ∧
     (frontFor s (descVdid (desc 1 2 2 0))).toOption = some 0 ∧ behindTest s (ownSlices s (descEntries (desc 1 2 2 0))) = true ∧
     behindTest (live 2) (ownSlices (live 2) (descEntries (desc 1 2 2 0))) = false ∧ behindTest s [1] = true) := by decide +kernel

/-- A flood passes by a link in self-test; a message behind one that bounced goes back; the ports of a partition at their ends. -/
theorem wit_FabricAndPorts_more :
    (let s : State := { fabState linkOn [] with slices := [(471, { state := .held, testing := true })] }
     linkUp (linkOf s 23) = true ∧ linkInTest s 23 = true ∧ linkInTest (fabState linkOn []) 23 = false) ∧
    (let p : Packet := { pkt 1 with kind := 1, cseq := 5 }
     let s : State := { pair (fun v => { v with bounced := [(rxKey (packetMsg p), 4)] }) with links := [(23, linkOn)] }
     partOfVdid s p.vdid = some 0 ∧ behindBounce s 0 p = true) ∧
    (portUsable (dual id 0 {}) 0 1 = false ∧
     let s : State := { dual id 0 {} with ports := [] }
     portUsable s 0 0 = false ∧ portUsable s 0 1 = false ∧ (partOf s 0).ctx.state = .active) ∧
    ((6200 : Nat) < 6201 ∧ ({ converting := true } : Power).converting = true) := by decide +kernel

/-- An interface to lock on one module and on two, and while a lock waits. -/
theorem wit_Interfaces_locks :
    ((partOf (tdiState .unlocked) 0).vd.locking = none ∧ otherMembers (tdiState .unlocked) 0 = []) ∧
    (let s : State := { pair id with sec := { mach.sec with sessions := [(0, { state := 5, keyGen := 1 })] } }
     tdiThere s 0 = true ∧ (partOf s 0).vf.tdi = .unlocked ∧ (partOf s 0).vd.locking = none ∧ (partOf s 0).vd.secure = false ∧ otherMembers s 0 = [7]) ∧
    (let s : State := { pair (fun v => { v with locking := some [7] }) with sec := { mach.sec with sessions := [(0, { state := 5, keyGen := 1 })] } }
     tdiThere s 0 = true ∧ (partOf s 0).vf.tdi = .unlocked ∧ (partOf s 0).vd.locking ≠ none) := by decide +kernel

/-- Time far ahead and far behind. -/
theorem wit_MeridianTime_steps :
    let s (x : Int) : State := { fabState linkOn [] with glb := { idValid := true, moduleId := 9 }, fab := { rootValid := true, rootId := 7, rtMember := [(7, 0x80800000#32)] }, pwr := { samples := List.replicate 15 x, everAligned := true } }
    isRoot (s 0) = false ∧ (s 0).fab.rootValid = true ∧ timeLinked (s 0) = true ∧ (routeMask (s 0) 7).isSome = true ∧ (s 0).pwr.samples.length + 1 = 16 ∧
    10000 < medianInt ((s 10001).pwr.samples ++ [offsetOf 0 20002 0 0]) ∧ medianInt ((s (-10001)).pwr.samples ++ [offsetOf 20002 0 0 0]) < -10000 := by decide +kernel

/-- A WAITMSG met with a pre-emption pending, and a message whose task runs on another module. -/
theorem wit_Waitmsg_more :
    (let k := atWord (.waitmsg 0 3 5 0 0 0) { coreMsg with preemptReq := true }
     atPc (gridState k grid) 0 (.waitmsg 0 3 5 0 0 0) ∧ (coreOf (gridState k grid) 0).preemptReq = true) ∧
    (let s : State := { gridState (waitCore 0) { grid with flight := [note 1] } with clusters := [(0, { coreMap := [(mapKey 0 (note 1).dst, 1025 + 7)] })] }
     forwardPlace s 0 0 (note 1).dst = some 7 ∧ forwardPlace (gridState (waitCore 0) { grid with flight := [note 1] }) 0 0 (note 1).dst = none ∧ (note 1).dst < 2 ^ 31) := by
  refine ⟨⟨?_, by decide⟩, by decide +kernel⟩
  exact (wit_atPc (.waitmsg 0 3 5 0 0 0) rfl { coreMsg with preemptReq := true } rfl rfl rfl).2

/-- A write of one word that port 0 of cluster 0 writes in the same cycle, the 16th time in a row. -/
theorem wit_Requests_collide :
    let s : State := { mach with parts := [(0, { part with ranges := [{ range with targets := [(0, false, 386)] }] })], clusters := [(0, { hits := [(hitKey (.copy 0) 0xFFC0, 15)] })] }
    portRange s 0 0x1FFC0 = none ∧ (writeRefused s (.copy 0) 0 0x1FFC0 64).isNone = true ∧ lineHeld s (.copy 0) 0x1FFC0 64 = false ∧ wordsOf 0x1FFC0 64 = [0x7FF] ∧
    port1Word s (.copy 0) 0 0x7FF = some (0, 0xFFC0) ∧ port0At [(0x1FFFF, [1#8])] 0x7FF = true ∧ tabGet 0 (clusterOf s 0).hits (hitKey (.copy 0) 0xFFC0) < 16 := by decide +kernel

end Sys2Proof.Tests
end

section
/-! SUPPORT. Register accesses: the half-access state, what a read or write of each width finds, and the statements on register accesses and on reset
(R9–R11). -/

namespace Sys2Proof.Proofs

open Sys2Proof.Machine Sys2Proof.Laws

-- the half-access state

/-- `t` differs from `s` in half-access state alone. -/
def onlyHalf (s t : State) : Prop := t = { s with half := t.half }

theorem onlyHalf_setHalf (s : State) (v : View) (h : Option HalfReg) : onlyHalf s (setHalf s v h) := rfl

theorem onlyHalf_putHalf (s : State) (v : View) (h : HalfReg) : onlyHalf s (putHalf s v h) := rfl

/-- A read that changes half-access state alone leaves that and its answer. -/
theorem answerRead_of_onlyHalf {s t : State} (h : onlyHalf s t) (r : ReadOut) :
    answerRead t r = { s with half := t.half, reads := s.reads ++ [r] } := by
  unfold onlyHalf at h; rw [h]; rfl

@[simp] theorem halfOf_answerRead (s : State) (r : ReadOut) (v : View) : halfOf (answerRead s r) v = halfOf s v := rfl

@[simp] theorem halfOf_setHalf_self (s : State) (v : View) (h : Option HalfReg) : halfOf (setHalf s v h) v = h := by
  simp [halfOf, setHalf]

@[simp] theorem halfOf_putHalf_self (s : State) (v : View) (h : HalfReg) :
    halfOf (putHalf s v h) v = if h.latched.isNone && h.heldLow.isNone then none else some h := halfOf_setHalf_self ..

theorem halfOf_putHalf_latched {s : State} {v : View} {h : HalfReg} {x : Nat} (hx : h.latched = some x) : halfOf (putHalf s v h) v = some h := by
  simp [hx]

theorem halfOf_putHalf_held {s : State} {v : View} {h : HalfReg} {x : Nat} (hx : h.heldLow = some x) : halfOf (putHalf s v h) v = some h := by
  simp [hx]

theorem eq_of_halfOf_putHalf {s : State} {v : View} {h g : HalfReg} (hg : halfOf (putHalf s v h) v = some g) : g = h := by
  rw [halfOf_putHalf_self] at hg
  split at hg
  · cases hg
  · exact (Option.some.inj hg).symm

@[simp] theorem halfFor_offset (s : State) (v : View) (base : Nat) : (halfFor s v base).offset = base := by
  unfold halfFor; split
  · split <;> simp_all
  · rfl

theorem halfFor_of_offset {s : State} {v : View} {h : HalfReg} {base : Nat} (hh : halfOf s v = some h) (ho : h.offset = base) :
    halfFor s v base = h := by
  simp [halfFor, hh, ho]

-- reads of 32 and of 64 bits

theorem read32_unassigned {s : State} {v : View} {o : Nat} (hr : regAt s v o = none) : read32 s v o = (s, 0) := by
  simp [read32, hr]

theorem read32_narrow {s : State} {v : View} {o : Nat} {r : Reg} (hr : regAt s v o = some r) (hw : r.wide = false)
    (hv : ∀ t, v ≠ .evc t) : read32 s v o = (setHalf s v none, r.value) := by
  cases v with
  | pf port => simp [read32, hr, hw]
  | vf port n => simp [read32, hr, hw]
  | evc t => exact absurd rfl (hv t)

theorem read32_low {s : State} {v : View} {o : Nat} {r : Reg} (hr : regAt s v o = some r) (hw : r.wide = true) (hb : r.base = o) :
    read32 s v o = (putHalf s v { halfFor s v o with latched := some (r.value / 2 ^ 32) }, r.value % 2 ^ 32) := by
  simp [read32, hr, hw, hb]

theorem read32_high {s : State} {v : View} {o : Nat} {r : Reg} (hr : regAt s v o = some r) (hw : r.wide = true) (hb : o ≠ r.base) :
    read32 s v o = (putHalf s v { halfFor s v r.base with latched := none }, (halfFor s v r.base).latched.getD (r.value / 2 ^ 32)) := by
  generalize hh : halfFor s v r.base = h
  obtain ⟨offset, latched, heldLow⟩ := h
  cases latched <;> simp [read32, hr, hw, hb, hh]

theorem read64_wide {s : State} {v : View} {o : Nat} {r : Reg} (hr : regAt s v o = some r) (hw : r.wide = true) :
    read64 s v o = (setHalf s v none, r.value) := by
  simp [read64, hr, hw]

theorem read64_unassigned {s : State} {v : View} {o : Nat} (hlo : regAt s v o = none) (hhi : regAt s v (o + 4) = none) :
    read64 s v o = (s, 0) := by
  simp [read64, hlo, read32_unassigned hlo, read32_unassigned hhi]

-- writes of 32 and of 64 bits

theorem write32_unassigned {s : State} {v : View} {o : Nat} (x : Nat) (hr : regAt s v o = none) : write32 s v o x = s := by
  simp [write32, hr]

theorem write32_low {s : State} {v : View} {o : Nat} {r : Reg} (x : Nat) (hr : regAt s v o = some r) (hw : r.wide = true) (hb : r.base = o) :
    write32 s v o x = putHalf s v { halfFor s v o with heldLow := some x } := by
  simp [write32, hr, hw, hb]

theorem write32_high_held {s : State} {v : View} {o lo : Nat} {r : Reg} (x : Nat) (hr : regAt s v o = some r) (hw : r.wide = true)
    (hb : o ≠ r.base) (hl : (halfFor s v r.base).heldLow = some lo) :
    write32 s v o x = writeWide (putHalf s v { halfFor s v r.base with heldLow := none }) v r.base (x * 2 ^ 32 + lo) := by
  simp [write32, hr, hw, hb, hl]

theorem write64_wide {s : State} {v : View} {o : Nat} {r : Reg} (x : Nat) (hr : regAt s v o = some r) (hw : r.wide = true) :
    write64 s v o x = writeWide (setHalf s v none) v o x := by
  simp [write64, hr, hw]

theorem write64_unassigned {s : State} {v : View} {o : Nat} (x : Nat) (hlo : regAt s v o = none) (hhi : regAt s v (o + 4) = none) :
    write64 s v o x = s := by
  simp [write64, hlo, write32_unassigned _ hlo, write32_unassigned _ hhi]

-- what REGISTER_READ and REGISTER_WRITE make of an access

section
variable {s : State} {bar f port o w : Nat} {tb : Bool} {v : View}

theorem accessRefused_of_misaligned (ho : o % (w / 8) ≠ 0) : accessRefused s v o w tb = true := by
  simp [accessRefused, ho]

/-- An aligned access that no TEE range refuses is refused only where it is a narrow one to a register (R10). -/
theorem accessRefused_of_aligned (ho : o % (w / 8) = 0) (ht : teeRefuses s v o tb = false) :
    accessRefused s v o w tb = (decide (w < 32) && (regAt s v (o / 4 * 4)).isSome) := by
  simp [accessRefused, ho, ht]

section
variable (hv : viewOf s bar f port = some v)
include hv

theorem exec_registerRead_refused (hw : accessWidth w = true) (hr : accessRefused s v o w tb = true) :
    exec (.registerRead bar f port o w tb) s = .next (answerRead s .ur) := by
  change execRegisterRead bar f port o w tb s = _
  simp [execRegisterRead, hv, hw, hr]

theorem exec_registerRead_narrow (hw : accessWidth w = true) (hn : w < 32) (hr : accessRefused s v o w tb = false) :
    exec (.registerRead bar f port o w tb) s = .next (answerRead s (.value w 0)) := by
  change execRegisterRead bar f port o w tb s = _
  simp [execRegisterRead, hv, hw, hr, hn]

theorem exec_registerWrite_refused (x : W64) (hr : accessRefused s v o w tb = true) :
    exec (.registerWrite bar f port o w x tb) s = .next s := by
  change execRegisterWrite bar f port o w x tb s = _
  simp [execRegisterWrite, hv, hr]

theorem exec_registerWrite_narrow (x : W64) (hn : w < 32) : exec (.registerWrite bar f port o w x tb) s = .next s := by
  change execRegisterWrite bar f port o w x tb s = _
  simp [execRegisterWrite, hv, hn]

section
variable (ht : teeRefuses s v o tb = false)
include ht

theorem exec_registerRead_32 (ho : o % 4 = 0) : exec (.registerRead bar f port o 32 tb) s =
    .next (answerRead (read32 s v o).1 (.value 32 (BitVec.ofNat 64 (read32 s v o).2))) := by
  change execRegisterRead bar f port o 32 tb s = _
  simp [execRegisterRead, hv, accessWidth, accessRefused_of_aligned (w := 32) ho ht]

theorem exec_registerRead_64 (ho : o % 8 = 0) : exec (.registerRead bar f port o 64 tb) s =
    .next (answerRead (read64 s v o).1 (.value 64 (BitVec.ofNat 64 (read64 s v o).2))) := by
  change execRegisterRead bar f port o 64 tb s = _
  simp [execRegisterRead, hv, accessWidth, accessRefused_of_aligned (w := 64) ho ht]

theorem exec_registerWrite_32 (x : W64) (ho : o % 4 = 0) :
    exec (.registerWrite bar f port o 32 x tb) s = .next (write32 s v o (x.toNat % 2 ^ 32)) := by
  change execRegisterWrite bar f port o 32 x tb s = _
  simp [execRegisterWrite, hv, accessWidth, accessRefused_of_aligned (w := 32) ho ht]

theorem exec_registerWrite_64 (x : W64) (ho : o % 8 = 0) :
    exec (.registerWrite bar f port o 64 x tb) s = .next (write64 s v o x.toNat) := by
  change execRegisterWrite bar f port o 64 x tb s = _
  simp [execRegisterWrite, hv, accessWidth, accessRefused_of_aligned (w := 64) ho ht]

/-- A 32-bit register is read, and half-access state discarded (R9). -/
theorem exec_registerRead_32_narrow {r : Reg} (ho : o % 4 = 0) (hr : regAt s v o = some r) (hw : r.wide = false) (he : ∀ t, v ≠ .evc t) :
    exec (.registerRead bar f port o 32 tb) s = .next (answerRead (setHalf s v none) (.value 32 (BitVec.ofNat 64 r.value))) := by
  rw [exec_registerRead_32 hv ht ho, read32_narrow hr hw he]

/-- The low half is read and the high half latched (R9). -/
theorem exec_registerRead_low {r : Reg} (ho : o % 4 = 0) (hr : regAt s v o = some r) (hw : r.wide = true) (hb : r.base = o) :
    exec (.registerRead bar f port o 32 tb) s = .next (answerRead (putHalf s v { halfFor s v o with latched := some (r.value / 2 ^ 32) })
      (.value 32 (BitVec.ofNat 64 (r.value % 2 ^ 32)))) := by
  rw [exec_registerRead_32 hv ht ho, read32_low hr hw hb]

/-- The high half reads as it was latched, or as it is where nothing is latched (R9). -/
theorem exec_registerRead_high {r : Reg} {h : HalfReg} (ho : o % 4 = 0) (hr : regAt s v o = some r) (hw : r.wide = true) (hb : o ≠ r.base)
    (hh : halfOf s v = some h) (hoff : h.offset = r.base) :
    exec (.registerRead bar f port o 32 tb) s = .next (answerRead (putHalf s v { h with latched := none })
      (.value 32 (BitVec.ofNat 64 (h.latched.getD (r.value / 2 ^ 32))))) := by
  rw [exec_registerRead_32 hv ht ho, read32_high hr hw hb, halfFor_of_offset hh hoff]

/-- The low half is held (R9). -/
theorem exec_registerWrite_low {r : Reg} (x : W64) (ho : o % 4 = 0) (hr : regAt s v o = some r) (hw : r.wide = true) (hb : r.base = o) :
    exec (.registerWrite bar f port o 32 x tb) s = .next (putHalf s v { halfFor s v o with heldLow := some (x.toNat % 2 ^ 32) }) := by
  rw [exec_registerWrite_32 hv ht x ho, write32_low _ hr hw hb]

/-- The high half is written together with the low half that is held (R9). -/
theorem exec_registerWrite_high {r : Reg} {h : HalfReg} {lo : Nat} (x : W64) (ho : o % 4 = 0) (hr : regAt s v o = some r) (hw : r.wide = true)
    (hb : o ≠ r.base) (hh : halfOf s v = some h) (hoff : h.offset = r.base) (hl : h.heldLow = some lo) :
    exec (.registerWrite bar f port o 32 x tb) s =
      .next (writeWide (putHalf s v { h with heldLow := none }) v r.base (x.toNat % 2 ^ 32 * 2 ^ 32 + lo)) := by
  have hf : halfFor s v r.base = h := halfFor_of_offset hh hoff
  rw [exec_registerWrite_32 hv ht x ho, write32_high_held (lo := lo) _ hr hw hb (by rw [hf, hl]), hf]

end
end
end

-- the statements

theorem accessWidth_of_narrow {w : Nat} (hw : w = 8 ∨ w = 16) : accessWidth w = true ∧ w < 32 := by
  rcases hw with rfl | rfl <;> decide

/-- Function 0's view through BAR0 is the PF's. -/
theorem viewOf_zero {s : State} {port : Nat} {v : View} (hv : viewOf s 0 0 port = some v) : v = .pf port := by
  simp [viewOf] at hv
  exact hv.2.symm

/-- GLB_ARCH_ID (R11). -/
theorem regAt_archId (s : State) (port : Nat) : regAt s (.pf port) 8 = some { wide := false, base := 8, value := 0x0300 } := rfl

/-- Settles O54: each access takes one branch of `read32`, `read64`, `write32` or `write64`, and the half-access state is what that branch leaves. -/
theorem registerAccess : Obligations.RegisterAccess := by
  intro s bar f port o w tb v x hv ht
  refine ⟨?misaligned, ?narrow, ?unassigned, ?register32, ?register64, ?archId⟩
  case misaligned =>
    intro hw ho
    have hwidth : accessWidth w = true := by simpa [accessWidth, or_assoc] using hw
    exact ⟨exec_registerRead_refused hv hwidth (accessRefused_of_misaligned ho), exec_registerWrite_refused hv x (accessRefused_of_misaligned ho)⟩
  case narrow =>
    intro hw ho
    obtain ⟨hwidth, hlt⟩ := accessWidth_of_narrow hw
    have href := accessRefused_of_aligned (w := w) ho ht
    refine ⟨fun hr => exec_registerRead_refused hv hwidth ?_, fun hr => exec_registerRead_narrow hv hwidth hlt ?_,
      exec_registerWrite_narrow hv x hlt⟩ <;> simp [href, hr, hlt]
  case unassigned =>
    intro ho hr
    refine ⟨?_, ?_, fun ho8 hhi => ⟨?_, ?_⟩⟩
    · rw [exec_registerRead_32 hv ht ho, read32_unassigned hr]; rfl
    · rw [exec_registerWrite_32 hv ht x ho, write32_unassigned _ hr]
    · rw [exec_registerRead_64 hv ht ho8, read64_unassigned hr hhi]; rfl
    · rw [exec_registerWrite_64 hv ht x ho8, write64_unassigned _ hr hhi]
  case register32 =>
    intro r ho hr hw he
    exact ⟨_, exec_registerRead_32_narrow hv ht ho hr hw he, answerRead_of_onlyHalf (onlyHalf_setHalf ..) _, by simp⟩
  case register64 =>
    intro r ho8 hr hw hb hthi hhi
    have ho : o % 4 = 0 := by omega
    have hohi : (o + 4) % 4 = 0 := by omega
    have hbhi : o + 4 ≠ r.base := by omega
    refine ⟨?readWhole, ?readLow, ?readHigh, ?writeLow, ?writeHigh, ?writeWhole⟩
    case readWhole =>
      refine ⟨_, exec_registerRead_64 hv ht ho8, ?_⟩
      rw [read64_wide hr hw]
      exact ⟨answerRead_of_onlyHalf (onlyHalf_setHalf ..) _, by simp⟩
    case readLow =>
      exact ⟨_, exec_registerRead_low hv ht ho hr hw hb, answerRead_of_onlyHalf (onlyHalf_putHalf ..) _,
        _, (halfOf_answerRead ..).trans (halfOf_putHalf_latched rfl), halfFor_offset .., rfl⟩
    case readHigh =>
      intro h hh hoff
      refine ⟨_, exec_registerRead_high hv hthi hohi hhi hw hbhi hh (hoff.trans hb.symm), answerRead_of_onlyHalf (onlyHalf_putHalf ..) _, ?_⟩
      intro g hg
      rw [eq_of_halfOf_putHalf hg]
    case writeLow =>
      exact ⟨_, exec_registerWrite_low hv ht x ho hr hw hb, onlyHalf_putHalf .., _, halfOf_putHalf_held rfl, halfFor_offset .., rfl⟩
    case writeHigh =>
      intro h lo hh hoff hl
      have hwrite := exec_registerWrite_high hv hthi x hohi hhi hw hbhi hh (hoff.trans hb.symm) hl
      refine ⟨_, onlyHalf_putHalf s v { h with heldLow := none }, hb ▸ hwrite, ?_⟩
      intro g hg
      rw [eq_of_halfOf_putHalf hg]
    case writeWhole =>
      refine ⟨setHalf s v none, onlyHalf_setHalf .., ?_, by simp⟩
      rw [exec_registerWrite_64 hv ht x ho8, write64_wide _ hr hw]
  case archId =>
    rintro rfl rfl
    obtain rfl := viewOf_zero hv
    exact ⟨_, exec_registerRead_32_narrow hv rfl rfl (regAt_archId s port) rfl nofun, rfl⟩

/-- The PF's 32-bit register at offset `p.1` holds `p.2` after reset. -/
def holdsAtReset (p : Nat × Nat) : Bool :=
  decide (p.1 % 4 = 0) && decide (regAt State.reset (.pf 0) p.1 = some { wide := false, base := p.1, value := p.2 })

theorem exec_registerRead_of_holdsAtReset {o v : Nat} (h : holdsAtReset (o, v) = true) : ∃ t,
    exec (.registerRead 0 0 0 o 32 false) State.reset = .next t ∧ t.reads = [.value 32 (BitVec.ofNat 64 v)] := by
  simp only [holdsAtReset, Bool.and_eq_true, decide_eq_true_eq] at h
  obtain ⟨ho, hr⟩ := h
  exact ⟨_, exec_registerRead_32_narrow (v := .pf 0) rfl rfl ho hr rfl nofun, rfl⟩

/-- Settles O58: at reset every table is empty, and the registers of the list are evaluated. -/
theorem resetState : Obligations.ResetState := by
  refine ⟨tabWf_nil _, rfl, rfl, fun _ => rfl, fun _ => ⟨rfl, rfl⟩, fun _ => ⟨rfl, rfl⟩, ?_⟩
  intro o v hmem
  have hall := List.all_eq_true (p := holdsAtReset) |>.mp (by decide +kernel) (o, v) hmem
  exact exec_registerRead_of_holdsAtReset hall

end Sys2Proof.Proofs
end

section
/-! SUPPORT. The power manager: what an error record and a throttle reason leave as it was, one rule for each change of an issue rate, a clock or a stack,
and the statement on power, clocks, droops, caps and temperatures (R29, R397–R403, R408, R412, R413, R437, R438). -/

namespace Sys2Proof.Proofs

open Sys2Proof.Machine Sys2Proof.Laws

/-- What no step of a fold changes, the fold does not change. -/
theorem foldl_keeps {α β γ : Type} (f : β → γ) {g : β → α → β} (h : ∀ b a, f (g b a) = f b) (l : List α) (b : β) : f (l.foldl g b) = f b := by
  induction l generalizing b with
  | nil => rfl
  | cons a l ih => exact (ih _).trans (h b a)

/-- A part of the state that an erasure leaves is equal in two states that agree after it. -/
theorem kept_of_erased {α : Type} (erase : State → State) {s t : State} (f : State → α) (hf : ∀ u, f (erase u) = f u)
    (h : erase t = erase s) : f t = f s := by
  rw [← hf t, h, hf]

-- error records

/-- The state without what error records are kept in: RSEQ and the flash log, the buffer and the host ring, and the way to the host (R376). States that
agree in it differ in records alone. -/
def sansRecords (s : State) : State :=
  { s with nv := { s.nv with rseq := 0, log := [], logged := 0 }, err := {}, ports := [], hostOut := [], msix := [] }

theorem sansRecords_setErr (s : State) (e : Err) : sansRecords { s with err := e } = sansRecords s := rfl

@[simp] theorem sansRecords_hostControl (s : State) (f addr : Nat) (data : List Byte) : sansRecords (hostControl s f addr data) = sansRecords s := by
  simp only [hostControl, hostPost]
  split <;> rfl

@[simp] theorem sansRecords_ringPlace (s : State) (r : ErrRec) : sansRecords (ringPlace s r) = sansRecords s := by
  simp only [ringPlace]
  split <;> exact sansRecords_hostControl ..

@[simp] theorem sansRecords_ringDrain (k : Nat) (s : State) : sansRecords (ringDrain k s) = sansRecords s := by
  induction k generalizing s with
  | zero => rfl
  | succ k ih =>
    rw [ringDrain]
    split
    · rfl
    · dsimp only
      split
      · split
        · rw [ih, sansRecords_setErr, sansRecords_ringPlace]
        · rw [ih, sansRecords_setErr, sansRecords_ringPlace]
      · rfl

@[simp] theorem sansRecords_writeRecord (s : State) (r : ErrRec) : sansRecords (writeRecord s r) = sansRecords s := by
  simp only [writeRecord, sansRecords_ringDrain]
  split <;> split <;> rfl

@[simp] theorem sansRecords_report (s : State) (r : ErrRec) : sansRecords (report s r) = sansRecords s := by
  unfold report
  split
  · split <;> rfl
  · exact sansRecords_writeRecord s r

/-- An event changes error records alone (R376). -/
@[simp] theorem sansRecords_event (s : State) (cls severity code status utype uindex : Nat) (n : Option Nat) (cmd : Option (Nat × Nat))
    (detail : List W64) : sansRecords (event s cls severity code status utype uindex n cmd detail) = sansRecords s := sansRecords_report ..

section
variable (s : State) (cls severity code status utype uindex : Nat) (n : Option Nat) (cmd : Option (Nat × Nat)) (detail : List W64)

@[simp] theorem event_pending : (event s cls severity code status utype uindex n cmd detail).pending = s.pending :=
  kept_of_erased sansRecords State.pending (fun _ => rfl) (sansRecords_event ..)

@[simp] theorem event_svnFused : (event s cls severity code status utype uindex n cmd detail).nv.svnFused = s.nv.svnFused :=
  kept_of_erased sansRecords (·.nv.svnFused) (fun _ => rfl) (sansRecords_event ..)

@[simp] theorem event_lifecycle : (event s cls severity code status utype uindex n cmd detail).nv.lifecycle = s.nv.lifecycle :=
  kept_of_erased sansRecords (·.nv.lifecycle) (fun _ => rfl) (sansRecords_event ..)

end

-- throttle reasons

/-- The state without error records and throttle reasons (R376, R403). -/
def sansReasons (s : State) : State := { sansRecords s with pwr := { s.pwr with reasons := 0 } }

theorem sansReasons_of_sansRecords {s t : State} (h : sansRecords t = sansRecords s) : sansReasons t = sansReasons s :=
  congrArg (fun u : State => { u with pwr := { u.pwr with reasons := 0 } }) h

/-- A throttle reason counted or not changes reasons and records alone (R403). -/
@[simp] theorem sansReasons_setReason (s : State) (k : Nat) (on : Bool) (reading : Nat) : sansReasons (setReason s k on reading) = sansReasons s := by
  simp only [setReason]
  split
  · exact (sansReasons_of_sansRecords (sansRecords_event _ 7 1 1 0 10 0 none none _) :)
  · rfl

@[simp] theorem sansReasons_capReasons (s : State) : sansReasons (capReasons s) = sansReasons s := by
  simp [capReasons]

@[simp] theorem sansReasons_droopReason (s : State) : sansReasons (droopReason s) = sansReasons s := sansReasons_setReason ..

@[simp] theorem sansReasons_thermalReason (s : State) : sansReasons (thermalReason s) = sansReasons s := sansReasons_setReason ..

@[simp] theorem clusterOf_capReasons (s : State) (c : Nat) : clusterOf (capReasons s) c = clusterOf s c :=
  kept_of_erased sansReasons (clusterOf · c) (fun _ => rfl) (sansReasons_capReasons s)

@[simp] theorem clusterOf_droopReason (s : State) (c : Nat) : clusterOf (droopReason s) c = clusterOf s c :=
  kept_of_erased sansReasons (clusterOf · c) (fun _ => rfl) (sansReasons_droopReason s)

theorem capReasons_clusters (s : State) : (capReasons s).clusters = s.clusters := kept_of_erased sansReasons State.clusters (fun _ => rfl) (sansReasons_capReasons s)

theorem capReasons_vin (s : State) : (capReasons s).pwr.vin = s.pwr.vin := kept_of_erased sansReasons (·.pwr.vin) (fun _ => rfl) (sansReasons_capReasons s)

theorem capReasons_lowVin (s : State) : (capReasons s).pwr.lowVin = s.pwr.lowVin := kept_of_erased sansReasons (·.pwr.lowVin) (fun _ => rfl) (sansReasons_capReasons s)

theorem effectiveCap_capReasons (s : State) : effectiveCap (capReasons s).pwr = effectiveCap s.pwr :=
  kept_of_erased sansReasons (fun t => effectiveCap t.pwr) (fun _ => rfl) (sansReasons_capReasons s)

-- caps (R399)

theorem capLimit_capLimit (w : Nat) : capLimit (capLimit w) = capLimit w := by
  simp only [capLimit, Nat.min_def, Nat.max_def]
  grind

theorem effectiveCap_le_pldm (p : Power) : effectiveCap p ≤ capLimit p.pldmW := by
  simp only [effectiveCap, Nat.min_def]
  grind

theorem effectiveCap_le_ext {p : Power} (h : p.throttleLow = true) : effectiveCap p ≤ capLimit p.extW := by
  simp only [effectiveCap, h, Nat.min_def]
  grind

theorem effectiveCap_le_lowVin {p : Power} (h : p.lowVin = true) : effectiveCap p ≤ 1500 := by
  simp only [effectiveCap, h, if_true]
  exact Nat.min_le_right ..

theorem exec_pldmSetPowerCap_running {s : State} (h : 6 ≤ s.glb.stage) (w : Nat) :
    exec (.pldmSetPowerCap w) s = .next (capReasons { s with pwr := { s.pwr with pldmW := capLimit w } }) := if_neg (Nat.not_lt.mpr h)

theorem exec_pldmSetPowerCap_early {s : State} (h : s.glb.stage < 6) (w : Nat) : exec (.pldmSetPowerCap w) s = .next s := if_pos h

-- issue rates (R400)

theorem clusterOf_setRate_of_ne (s : State) (r : Nat) {c d : Nat} (h : d ≠ c) : clusterOf (setRate s c r) d = clusterOf s d := by
  simp [setRate, h]

/-- A cluster that no droop holds: at most its limit, at least its floor, at most one step down (R400). -/
theorem clusterOf_setRate_self {s : State} {c : Nat} (r : Nat) (h : (clusterOf s c).drooping = none) :
    clusterOf (setRate s c r) c = { clusterOf s c with
      rate := Nat.min (clusterOf s c).limit (Nat.max (Nat.max (if drains s c then 32 else 8) ((clusterOf s c).rate - 1)) r) } := by
  simp [setRate, h]

theorem drains_foldl_setRate (r : Nat) (l : List Nat) (s : State) (c : Nat) : drains (l.foldl (fun s c => setRate s c r) s) c = drains s c :=
  foldl_keeps (g := fun s c => setRate s c r) (drains · c) (fun _ _ => rfl) l s

theorem iin_foldl_setRate (r : Nat) (l : List Nat) (s : State) : (l.foldl (fun s c => setRate s c r) s).pwr.iin = s.pwr.iin :=
  foldl_keeps (g := fun s c => setRate s c r) (·.pwr.iin) (fun _ _ => rfl) l s

/-- The rates of the clusters below `n` set in turn: each is set once. -/
theorem clusterOf_foldl_setRate {s : State} {c : Nat} (r n : Nat) (h : (clusterOf s c).drooping = none) :
    clusterOf ((List.range n).foldl (fun s c => setRate s c r) s) c = if c < n then clusterOf (setRate s c r) c else clusterOf s c := by
  induction n with
  | zero => rfl
  | succ n ih =>
    rw [List.range_succ, List.foldl_append, List.foldl_cons, List.foldl_nil]
    by_cases hc : c = n
    · subst hc
      have hkept := ih.trans (if_neg (Nat.lt_irrefl c))
      rw [clusterOf_setRate_self r (by rw [hkept]; exact h), hkept, drains_foldl_setRate, if_pos (Nat.lt_succ_self c),
        clusterOf_setRate_self r h]
    · have hlt : c < n + 1 ↔ c < n := by omega
      rw [clusterOf_setRate_of_ne _ _ hc, ih]
      simp only [hlt]

/-- ISSUE_RATE_UPDATE for one cluster (R400). -/
theorem exec_issueRateUpdate_one {c : Nat} (hc : c < 64) (r pin : Nat) (s : State) : exec (.issueRateUpdate [(c, r)] pin) s =
    .next (capReasons (setRate { s with pwr := { s.pwr with pin, pinSum := s.pwr.pinSum + pin, pinCount := s.pwr.pinCount + 1 } } c r)) := by
  change execIssueRateUpdate [(c, r)] pin s = _
  simp [execIssueRateUpdate, hc]

/-- The state with a reading of the input current taken in (R397). -/
def meteredCurrent (s : State) (mean : Nat) : State :=
  { s with pwr := { s.pwr with iin := mean, iinSum := s.pwr.iinSum + mean, iinCount := s.pwr.iinCount + 1 } }

theorem exec_inputCurrentLimit_within {mean peak : Nat} (hm : mean ≤ 9000) (hp : peak ≤ 10000) (s : State) :
    exec (.inputCurrentLimit mean peak) s = .next (capReasons (setReason (meteredCurrent s mean) 1 false mean)) := by
  change execInputCurrentLimit mean peak s = _
  simp [execInputCurrentLimit, meteredCurrent, Nat.not_lt.mpr hm, Nat.not_lt.mpr hp]

theorem exec_inputCurrentLimit_over {mean peak : Nat} (h : 9000 < mean ∨ 10000 < peak) (s : State) : exec (.inputCurrentLimit mean peak) s =
    .next (capReasons (setReason ((List.range 64).foldl (fun s c => setRate s c 0) (meteredCurrent s mean)) 1 true mean)) := by
  change execInputCurrentLimit mean peak s = _
  have hover : (decide (mean > 9000) || decide (peak > 10000)) = true := by simpa using h
  simp only [execInputCurrentLimit, hover, if_true]
  rfl

theorem sansReasons_currentReasons (s : State) (on : Bool) (mean : Nat) : sansReasons (capReasons (setReason s 1 on mean)) = sansReasons s := by simp

-- clocks (R29, R401, R408)

theorem clusterOf_setClock_of_ne (s : State) (f : Nat) {c d : Nat} (h : d ≠ c) : clusterOf (setClock s c f) d = clusterOf s d := by
  unfold setClock
  split <;> simp [h]

theorem clusterOf_setClock_self (s : State) (c f : Nat) : clusterOf (setClock s c f) c =
    if (sliceOf s c).gated then { clusterOf s c with clkNext := some f }
    else { clusterOf s c with clkCur := f, clkNext := none, synced := (clusterOf s c).synced && decide (f = (clusterOf s c).clkCur) } := by
  unfold setClock
  split <;> simp

theorem exec_clockStep_down {s : State} {c : Nat} (hc : c < 64)
    (hdue : s.pwr.junction ≥ 95 ∨ ((clusterOf s c).rate = 8 ∧ effectiveCap s.pwr < s.pwr.pin)) (hf : 600 < clockDue (clusterOf s c)) :
    exec (.clockStep c true) s = .next (capReasons (setClock s c (Nat.max 600 (clockDue (clusterOf s c) - 100)))) := by
  change execClockStep c true s = _
  have hd : ((clusterOf s c).rate == 8 && decide (s.pwr.pin > effectiveCap s.pwr) || decide (s.pwr.junction ≥ 95)) = true := by
    simpa [or_comm] using hdue
  simp [execClockStep, hd, Nat.not_le.mpr hc, Nat.not_le.mpr hf]

theorem exec_clockStep_up {s : State} {c : Nat} (hc : c < 64) (hr : 48 ≤ (clusterOf s c).rate)
    (hf : clockDue (clusterOf s c) < (clusterOf s c).clkTarget) :
    exec (.clockStep c false) s = .next (capReasons (setClock s c (Nat.min (clusterOf s c).clkTarget (clockDue (clusterOf s c) + 100)))) := by
  change execClockStep c false s = _
  simp [execClockStep, hr, Nat.not_le.mpr hc, Nat.not_le.mpr hf]

-- droops (R402, R413)

/-- A change of one cluster, with the DROOP reason after it. -/
theorem clusterOf_droopReason_modCluster (s : State) (c : Nat) (f : Cluster → Cluster) :
    (∀ d, d ≠ c → clusterOf (droopReason (modCluster s c f)) d = clusterOf s d) ∧
      clusterOf (droopReason (modCluster s c f)) c = f (clusterOf s c) := by
  refine ⟨fun d hd => ?_, ?_⟩
  · simp [hd]
  · simp

section
variable {c percent : Nat} (hc : c < 64)
include hc

theorem exec_droop_light (h : percent < 5) (s : State) :
    exec (.droop c percent) s = .next (droopReason (modCluster s c (fun y => { y with stretched := false }))) := by
  change execDroop c percent s = _
  simp [execDroop, Nat.not_le.mpr hc, h]

theorem exec_droop_drains {s : State} (h : 5 ≤ percent) (hd : drains s c = true) : exec (.droop c percent) s =
    .next (droopReason (modCluster s c (fun y => { y with drooping := some (y.drooping.getD y.rate), rate := Nat.min y.rate 32, stretched := true }))) := by
  change execDroop c percent s = _
  simp [execDroop, Nat.not_le.mpr hc, Nat.not_lt.mpr h, hd]

theorem exec_droop_cuts {s : State} (h : 5 ≤ percent) (hd : drains s c = false) : exec (.droop c percent) s =
    .next (droopReason (modCluster s c (fun y => { y with
      drooping := some (y.drooping.getD y.rate), rate := Nat.min y.rate 16, stretched := y.stretched || decide (percent ≥ 8) }))) := by
  change execDroop c percent s = _
  simp [execDroop, Nat.not_le.mpr hc, Nat.not_lt.mpr h, hd]

end

theorem exec_droopRestore_held {s : State} {c r : Nat} (h : (clusterOf s c).drooping = some r) : exec (.droopRestore c) s =
    .next (droopReason (modCluster s c (fun y => { y with
      rate := Nat.min r ((clusterOf s c).rate + 4), drooping := if Nat.min r ((clusterOf s c).rate + 4) = r then none else some r }))) := by
  change execDroopRestore c s = _
  simp only [execDroopRestore, h]

-- conversion stopped (R385, R397, R438)

/-- Main conversion of `s` has stopped in `t`: nothing runs and memory is gone, fuses and the queue stay (R385). -/
def switchedOff (s t : State) : Prop :=
  t.pwr.converting = false ∧ t.cores = [] ∧ t.mem = [] ∧ t.nv.svnFused = s.nv.svnFused ∧ t.nv.lifecycle = s.nv.lifecycle ∧ t.pending = s.pending

theorem switchedOff_inputLost (s : State) : switchedOff s (inputLost s) := by
  simp only [inputLost]
  split <;> exact ⟨rfl, rfl, rfl, rfl, rfl, rfl⟩

/-- A thermal shutdown stops conversion, and only its record came before (R438). -/
theorem switchedOff_shutdown (s : State) (sensor celsius : Nat) : switchedOff s (shutdown s sensor celsius) :=
  ⟨rfl, rfl, rfl, event_svnFused .., event_lifecycle .., event_pending ..⟩

-- input voltage (R397)

theorem exec_vinChange_lost {mv us : Nat} (h : (mv < 4400 ∧ 1000 ≤ us) ∨ (6200 < mv ∧ 100 ≤ us)) (s : State) :
    exec (.vinChange mv us) s = .next (inputLost { s with pwr := { s.pwr with vin := mv } }) := by
  change execVinChange mv us s = _
  have hlost : (decide (mv < 4400) && decide (us ≥ 1000) || decide (mv > 6200) && decide (us ≥ 100)) = true := by simpa using h
  simp only [execVinChange, hlost, if_true]

theorem exec_vinChange_low {s : State} {mv us : Nat} (hconv : s.pwr.converting = true) (hlo : 4400 ≤ mv) (hhi : mv < 4600) (hus : 100 ≤ us) :
    exec (.vinChange mv us) s = .next (if s.pwr.lowVin then { s with pwr := { s.pwr with vin := mv } }
      else capReasons (vinRecord { s with pwr := { s.pwr with vin := mv, lowVin := true } })) := by
  change execVinChange mv us s = _
  have h1 : ¬ mv < 4400 := by omega
  have h2 : ¬ mv > 6200 := by omega
  cases hlow : s.pwr.lowVin <;> simp [execVinChange, h1, h2, hconv, hhi, hus, hlow]

theorem exec_vinChange_normal {s : State} {mv us : Nat} (hconv : s.pwr.converting = true) (hlo : 4700 ≤ mv) (hhi : mv ≤ 5950) (hus : 10000 ≤ us) :
    exec (.vinChange mv us) s = .next (capReasons { s with pwr := { s.pwr with vin := mv, lowVin := false } }) := by
  change execVinChange mv us s = _
  have h1 : ¬ mv < 4400 := by omega
  have h2 : ¬ mv > 6200 := by omega
  have h3 : ¬ mv < 4600 := by omega
  have h4 : ¬ mv > 5950 := by omega
  simp [execVinChange, h1, h2, h3, h4, hconv, hlo, hus]

/-- The low-voltage cap with its record changes records and reasons alone beside it (R397, R399). -/
theorem sansReasons_lowVoltage (s : State) : sansReasons (capReasons (vinRecord s)) = sansReasons s :=
  (sansReasons_capReasons _).trans (sansReasons_of_sansRecords (sansRecords_event ..))

-- temperatures (R412, R437)

/-- The state without what guarantees' scaling changes: partitions, the Atlas and records (R274). -/
def sansScales (s : State) : State := { sansRecords s with parts := [], atl := {} }

theorem sansScales_rescalePart (s : State) (n : Nat) : sansScales (rescalePart s n) = sansScales s := by
  simp only [rescalePart]
  split
  · rfl
  · exact congrArg (fun u : State => { u with parts := [], atl := {} }) (sansRecords_event ..)

@[simp] theorem sansScales_rescale (s : State) : sansScales (rescale s) = sansScales s := foldl_keeps sansScales sansScales_rescalePart ..

/-- A stack's channels, `n` of them from `b` upward, at a temperature. -/
theorem chanOf_foldl_stackWarm (s : State) (b n t g : Nat) : chanOf ((List.range n).foldl (fun s i => stackWarm s (b + i) t) s) g =
    if b ≤ g ∧ g < b + n then { chanOf s g with
      capacity := stackCapacity (chanOf s g).capacity t, halfRate := decide (stackCapacity (chanOf s g).capacity t = 420) } else chanOf s g := by
  induction n with
  | zero => simp only [List.range_zero, List.foldl_nil]; rw [if_neg (by omega)]
  | succ n ih =>
    rw [List.range_succ, List.foldl_append, List.foldl_cons, List.foldl_nil, stackWarm, chanOf_modChan]
    by_cases hg : g = b + n
    · subst hg
      rw [if_pos rfl, ih, if_neg (by omega), if_pos (by omega)]
    · have hlt : (b ≤ g ∧ g < b + (n + 1)) ↔ (b ≤ g ∧ g < b + n) := by omega
      rw [if_neg hg, ih]
      simp only [hlt]

/-- A stack's new temperature at its 32 channels (R412). -/
def warmed (s : State) (unit celsius : Nat) : State := (List.range 32).foldl (fun s i => stackWarm s (32 * unit + i) celsius) s

theorem chanOf_warmed (s : State) (unit celsius g : Nat) : chanOf (warmed s unit celsius) g =
    if g / 32 = unit then { chanOf s g with
      capacity := stackCapacity (chanOf s g).capacity celsius, halfRate := decide (stackCapacity (chanOf s g).capacity celsius = 420) } else chanOf s g := by
  have hin : (32 * unit ≤ g ∧ g < 32 * unit + 32) ↔ g / 32 = unit := by omega
  simp only [warmed, chanOf_foldl_stackWarm, hin]

/-- The state without its channels. -/
def sansChans (s : State) : State := { s with chans := [] }

/-- Warming a stack changes channels alone. -/
theorem sansChans_warmed (s : State) (unit celsius : Nat) : sansChans (warmed s unit celsius) = sansChans s :=
  foldl_keeps (g := fun s i => stackWarm s (32 * unit + i) celsius) sansChans (fun _ _ => rfl) _ _

/-- The reading of one sensor taken in (R437). -/
def sensed (s : State) (sensor unit celsius : Nat) : State :=
  match sensor with
  | 0 => { s with pwr := { s.pwr with junction := celsius } }
  | 1 => if unit < 12 then { s with pwr := { s.pwr with stackTs := tabSet 0 s.pwr.stackTs unit celsius } } else s
  | 3 => { s with pwr := { s.pwr with coldPlate := celsius } }
  | 4 => { s with pwr := { s.pwr with inlet := celsius } }
  | _ => s

/-- The state without the power manager. -/
def sansPower (s : State) : State := { s with pwr := {} }

/-- A reading changes the power manager alone. -/
theorem sansPower_sensed (s : State) (sensor unit celsius : Nat) : sansPower (sensed s sensor unit celsius) = sansPower s := by
  unfold sensed
  split
  case h_2 => split <;> rfl
  all_goals rfl

/-- A reading leaves conversion as it is. -/
theorem sensed_converting (s : State) (sensor unit celsius : Nat) : (sensed s sensor unit celsius).pwr.converting = s.pwr.converting := by
  unfold sensed
  split
  case h_2 => split <;> rfl
  all_goals rfl

/-- TEMPERATURE_THRESHOLD while conversion runs (R412, R437, R438). -/
theorem exec_temperatureThreshold {s : State} (hconv : s.pwr.converting = true) (sensor unit celsius : Nat) :
    exec (.temperatureThreshold sensor unit celsius) s = .next (
      if shutdownAt sensor celsius then shutdown (sensed s sensor unit celsius) sensor celsius
      else if sensor = 1 ∧ unit < 12 then thermalReason (rescale (warmed (sensed s sensor unit celsius) unit celsius))
      else thermalReason (sensed s sensor unit celsius)) := by
  change execTemperatureThreshold sensor unit celsius s = _
  have hsensed : (sensed s sensor unit celsius).pwr.converting = true := (sensed_converting ..).trans hconv
  change (if !(sensed s sensor unit celsius).pwr.converting then _ else _) = _
  simp only [hsensed, Bool.not_true, Bool.and_eq_true, decide_eq_true_eq]
  split
  · contradiction
  · split
    · rfl
    · split <;> rfl

theorem exec_thermalShutdown {s : State} (hconv : s.pwr.converting = true) (sensor celsius : Nat) :
    exec (.thermalShutdown sensor celsius) s = .next (if shutdownAt sensor celsius then shutdown s sensor celsius else s) := by
  change execThermalShutdown sensor celsius s = _
  simp only [execThermalShutdown, hconv, Bool.true_and]
  split <;> rfl

theorem switchedOff_shutdown_sensed (s : State) (sensor unit celsius : Nat) :
    switchedOff s (shutdown (sensed s sensor unit celsius) sensor celsius) := by
  have hnv := kept_of_erased sansPower State.nv (fun _ => rfl) (sansPower_sensed s sensor unit celsius)
  have hpending := kept_of_erased sansPower State.pending (fun _ => rfl) (sansPower_sensed s sensor unit celsius)
  have hoff := switchedOff_shutdown (sensed s sensor unit celsius) sensor celsius
  unfold switchedOff at hoff ⊢
  rwa [hnv, hpending] at hoff

/-- What neither the THERMAL reason nor the scaling of guarantees changes. -/
theorem kept_thermalReason_rescale {α : Type} (f : State → α) (hr : ∀ u, f (sansReasons u) = f u) (hs : ∀ u, f (sansScales u) = f u) (s : State) :
    f (thermalReason (rescale s)) = f s :=
  (kept_of_erased sansReasons f hr (sansReasons_thermalReason _)).trans (kept_of_erased sansScales f hs (sansScales_rescale s))

/-- What neither a stack's warmth nor a reading changes. -/
theorem kept_warmed_sensed {α : Type} (f : State → α) (hc : ∀ u, f (sansChans u) = f u) (hp : ∀ u, f (sansPower u) = f u) (s : State)
    (sensor unit celsius : Nat) : f (warmed (sensed s sensor unit celsius) unit celsius) = f s :=
  (kept_of_erased sansChans f hc (sansChans_warmed ..)).trans (kept_of_erased sansPower f hp (sansPower_sensed ..))

-- the statement

/-- A stack's new reading: its channels' capacity is derated and nothing of the clusters or of memory changes (R412). -/
theorem temperature_of_stack (s : State) (unit celsius : Nat) :
    let t := thermalReason (rescale (warmed (sensed s 1 unit celsius) unit celsius))
    t.clusters = s.clusters ∧ t.mem = s.mem ∧ ∀ g, chanOf t g = if g / 32 = unit then { chanOf s g with
      capacity := stackCapacity (chanOf s g).capacity celsius, halfRate := decide (stackCapacity (chanOf s g).capacity celsius = 420) }
      else chanOf s g := by
  intro t
  refine ⟨?_, ?_, fun g => ?_⟩
  · exact (kept_thermalReason_rescale State.clusters (fun _ => rfl) (fun _ => rfl) _).trans
      (kept_warmed_sensed State.clusters (fun _ => rfl) (fun _ => rfl) ..)
  · exact (kept_thermalReason_rescale State.mem (fun _ => rfl) (fun _ => rfl) _).trans
      (kept_warmed_sensed State.mem (fun _ => rfl) (fun _ => rfl) ..)
  · have hchan := kept_of_erased sansPower (chanOf · g) (fun _ => rfl) (sansPower_sensed s 1 unit celsius)
    have hwarmed := chanOf_warmed (sensed s 1 unit celsius) unit celsius g
    rw [hchan] at hwarmed
    exact (kept_thermalReason_rescale (chanOf · g) (fun _ => rfl) (fun _ => rfl) _).trans hwarmed

/-- Another sensor's reading, or one of no stack: only the power manager and the records change (R437). -/
theorem temperature_elsewhere (s : State) (sensor unit celsius : Nat) :
    let t := thermalReason (sensed s sensor unit celsius)
    t.clusters = s.clusters ∧ t.mem = s.mem ∧ (sensor = 0 → t.pwr.junction = celsius) := by
  intro t
  have hreason := sansReasons_thermalReason (sensed s sensor unit celsius)
  have hsensed := sansPower_sensed s sensor unit celsius
  refine ⟨?_, ?_, fun h0 => ?_⟩
  · exact (kept_of_erased sansReasons State.clusters (fun _ => rfl) hreason).trans (kept_of_erased sansPower State.clusters (fun _ => rfl) hsensed)
  · exact (kept_of_erased sansReasons State.mem (fun _ => rfl) hreason).trans (kept_of_erased sansPower State.mem (fun _ => rfl) hsensed)
  · subst h0
    exact kept_of_erased sansReasons (·.pwr.junction) (fun _ => rfl) hreason

/-- Settles O50: each command sets one cluster, one stack or one field of the power manager by its rule above; the reasons and records that follow it
change nothing else. -/
theorem powerControl : Obligations.PowerControl := by
  intro s c hc x rest floor off
  refine ⟨?activity, ?weights, ?rates, ⟨?clockDown, ?clockUp⟩, ?droop, ?restore, ?vin, ?current, ?throttle, ?cap, ?temperature⟩
  case activity =>
    intro w
    refine ⟨modCluster s c (fun x => { x with actW := w }), ?_, rfl, clusterOf_modCluster_self .., fun d hd => ?_⟩
    · exact if_neg (Nat.not_le.mpr hc)
    · simp [hd]
  case weights => exact fun l => ⟨_, rfl, rfl⟩
  case rates =>
    intro r pin hx
    refine ⟨_, exec_issueRateUpdate_one hc r pin s, kept_of_erased sansReasons (·.pwr.pin) (fun _ => rfl) (sansReasons_capReasons _), fun d hd => ?_, ?_⟩
    · exact (clusterOf_capReasons ..).trans (clusterOf_setRate_of_ne _ r hd)
    · exact (clusterOf_capReasons ..).trans (clusterOf_setRate_self r hx)
  case clockDown =>
    intro hwhy hf
    exact ⟨_, exec_clockStep_down hc hwhy hf, fun d hd => (clusterOf_capReasons ..).trans (clusterOf_setClock_of_ne _ _ hd),
      (clusterOf_capReasons ..).trans (clusterOf_setClock_self ..)⟩
  case clockUp =>
    intro hr hf
    exact ⟨_, exec_clockStep_up hc hr hf, fun d hd => (clusterOf_capReasons ..).trans (clusterOf_setClock_of_ne _ _ hd),
      (clusterOf_capReasons ..).trans (clusterOf_setClock_self ..)⟩
  case droop =>
    intro percent
    refine ⟨fun h => ?_, fun h hd => ?_, fun h hd => ?_⟩
    · exact ⟨_, exec_droop_light hc h s, clusterOf_droopReason_modCluster ..⟩
    · exact ⟨_, exec_droop_drains hc h hd, clusterOf_droopReason_modCluster ..⟩
    · exact ⟨_, exec_droop_cuts hc h hd, clusterOf_droopReason_modCluster ..⟩
  case restore => exact fun r hx => ⟨_, exec_droopRestore_held hx, clusterOf_droopReason_modCluster ..⟩
  case vin =>
    intro mv us hconv
    refine ⟨fun h => ⟨_, exec_vinChange_lost h s, switchedOff_inputLost _⟩, fun hlo hhi hus => ⟨_, exec_vinChange_low hconv hlo hhi hus, ?_⟩,
      fun hlo hhi hus => ⟨_, exec_vinChange_normal hconv hlo hhi hus, capReasons_vin _, capReasons_lowVin _, capReasons_clusters _⟩⟩
    by_cases hlow : s.pwr.lowVin = true
    · rw [if_pos hlow]
      exact ⟨rfl, fun h => absurd (hlow.symm.trans h) (by decide), rfl, rfl⟩
    · rw [if_neg hlow]
      have hsame := sansReasons_lowVoltage { s with pwr := { s.pwr with vin := mv, lowVin := true } }
      have hset := kept_of_erased sansReasons (·.pwr.lowVin) (fun _ => rfl) hsame
      exact ⟨kept_of_erased sansReasons (·.pwr.vin) (fun _ => rfl) hsame, fun _ => ⟨hset, effectiveCap_le_lowVin hset⟩,
        (kept_of_erased sansReasons State.clusters (fun _ => rfl) hsame :), (kept_of_erased sansReasons State.parts (fun _ => rfl) hsame :)⟩
  case current =>
    intro mean peak hx
    refine ⟨fun hm hp => ⟨_, exec_inputCurrentLimit_within hm hp s, ?_⟩, fun h => ⟨_, exec_inputCurrentLimit_over h s, ?_⟩⟩
    · have hsame := sansReasons_currentReasons (meteredCurrent s mean) false mean
      exact ⟨kept_of_erased sansReasons (·.pwr.iin) (fun _ => rfl) hsame, (kept_of_erased sansReasons State.clusters (fun _ => rfl) hsame :)⟩
    · have hsame := sansReasons_currentReasons ((List.range 64).foldl (fun s c => setRate s c 0) (meteredCurrent s mean)) true mean
      have hfold := (clusterOf_foldl_setRate (s := meteredCurrent s mean) 0 64 hx).trans (if_pos hc)
      refine ⟨(kept_of_erased sansReasons (·.pwr.iin) (fun _ => rfl) hsame).trans (iin_foldl_setRate ..), ?_⟩
      calc _ = clusterOf (setRate (meteredCurrent s mean) c 0) c := (kept_of_erased sansReasons (clusterOf · c) (fun _ => rfl) hsame).trans hfold
        _ = { x with rate := Nat.min x.limit (Nat.max (Nat.max floor (x.rate - 1)) 0) } := clusterOf_setRate_self (s := meteredCurrent s mean) 0 hx
        _ = _ := congrArg (fun r => { x with rate := Nat.min x.limit r }) (Nat.max_zero _)
  case throttle =>
    refine fun low => ⟨_, rfl, kept_of_erased sansReasons (·.pwr.throttleLow) (fun _ => rfl) (sansReasons_capReasons _), capReasons_clusters _, ?_⟩
    rintro rfl
    exact Nat.le_trans (Nat.le_of_eq (effectiveCap_capReasons _)) (effectiveCap_le_ext rfl)
  case cap =>
    refine fun w => ⟨fun h => ⟨_, exec_pldmSetPowerCap_running h w, ?_⟩, fun h => ⟨s, exec_pldmSetPowerCap_early h w, rfl⟩⟩
    have hw : (capReasons { s with pwr := { s.pwr with pldmW := capLimit w } }).pwr.pldmW = capLimit w :=
      kept_of_erased sansReasons (·.pwr.pldmW) (fun _ => rfl) (sansReasons_capReasons _)
    refine ⟨hw, ?_, capReasons_clusters _⟩
    rw [hw, effectiveCap_capReasons]
    exact Nat.le_trans (effectiveCap_le_pldm _) (Nat.le_of_eq (capLimit_capLimit w))
  case temperature =>
    intro sensor unit celsius hconv
    refine ⟨fun hhot => ⟨⟨_, exec_thermalShutdown hconv sensor celsius, ?_⟩, _, exec_temperatureThreshold hconv sensor unit celsius, ?_⟩,
      fun hcool => ⟨⟨_, exec_thermalShutdown hconv sensor celsius, if_neg (by simp [hcool])⟩, _, exec_temperatureThreshold hconv sensor unit celsius, ?_⟩⟩
    · rw [if_pos hhot]
      exact ⟨switchedOff_shutdown .., rfl, rfl⟩
    · rw [if_pos hhot]
      exact ⟨switchedOff_shutdown_sensed .., rfl, rfl⟩
    · rw [if_neg (by simp [hcool])]
      by_cases hstack : sensor = 1 ∧ unit < 12
      · rw [if_pos hstack]
        obtain ⟨rfl, -⟩ := hstack
        obtain ⟨hclusters, hmem, hchan⟩ := temperature_of_stack s unit celsius
        exact ⟨hclusters, hmem, nofun, fun _ _ => hchan⟩
      · rw [if_neg hstack]
        obtain ⟨hclusters, hmem, hjunction⟩ := temperature_elsewhere s sensor unit celsius
        exact ⟨hclusters, hmem, hjunction, fun h1 hu => absurd ⟨h1, hu⟩ hstack⟩

end Sys2Proof.Proofs
end

section
/-! SUPPORT. The allocator of device pages: a pool read back after a change, the writes of a span leave every partition as it was, the block that a search
finds, and the statement on ALLOC, FREE and the GET at the port (R174–R176). -/

namespace Sys2Proof.Proofs

open Sys2Proof.Machine Sys2Proof.Laws

-- writes of device virtual spans leave the partitions alone

theorem memWrite_parts (s : State) (n pa : Nat) (bs : List Byte) (bad : Bool) : (memWrite s n pa bs bad).parts = s.parts := by
  rw [memWrite_beside s n pa bs bad]

theorem spillOut_parts (s : State) (n pa : Nat) : (spillOut s n pa).parts = s.parts := by
  unfold spillOut
  split <;> rfl

theorem writeHere_parts (s : State) (n pa : Nat) (bs : List Byte) (bad : Bool) : (writeHere s n pa bs bad).parts = s.parts := by
  have hmoved : (match moveCopy s n pa with | some b => memWrite s n b bs bad | none => s).parts = s.parts := by
    split
    · exact memWrite_parts ..
    · rfl
  simp only [writeHere, spillOut_parts, memWrite_parts]
  split <;> exact hmoved

theorem writeOut_parts (s : State) (n va : Nat) (d : Dest) (bs : List Byte) (bad : Bool) : (writeOut s n va d bs bad).parts = s.parts := by
  unfold writeOut
  cases d with
  | host addr pv pasid => dsimp only; split <;> rfl
  | here | there | wait | fault => rfl

theorem writePages_parts (n : Nat) (bad : Bool) (k : Nat) (s : State) (va : Nat) (bs : List Byte) : (writePages n bad k s va bs).parts = s.parts := by
  induction k generalizing s va bs with
  | zero => rfl
  | succ k ih =>
    cases bs with
    | nil => rfl
    | cons b bs =>
      simp only [writePages, ih]
      split
      · exact writeHere_parts ..
      · exact writeOut_parts ..

theorem partOf_writeSpan (s : State) (n va : Nat) (bs : List Byte) (bad : Bool) (m : Nat) : partOf (writeSpan s n va bs bad) m = partOf s m := by
  simp only [partOf, writeSpan, writePages_parts]

theorem partOf_event (s : State) (cls severity code status utype uindex : Nat) (n : Option Nat) (cmd : Option (Nat × Nat)) (detail : List W64)
    (m : Nat) : partOf (event s cls severity code status utype uindex n cmd detail) m = partOf s m :=
  kept_of_erased sansRecords (partOf · m) (fun _ => rfl) (sansRecords_event ..)

-- pools

/-- The pool whose range starts at a page. -/
def poolOf (s : State) (n base : Nat) : Pool := tabGet {} (partOf s n).pools base

@[simp] theorem poolOf_modPool (s : State) (n base : Nat) (f : Pool → Pool) : poolOf (modPool s n base f) n base = f (poolOf s n base) := by
  simp [poolOf, modPool]

@[simp] theorem poolOf_holdReply (s : State) (n base task : Nat) (q : PortReq) : poolOf (holdReply s n base task q) n base =
    { poolOf s n base with replies := (poolOf s n base).replies ++ [(task, q)] } := poolOf_modPool ..

@[simp] theorem poolOf_writeSpan (s : State) (n va : Nat) (bs : List Byte) (bad : Bool) (base : Nat) :
    poolOf (writeSpan s n va bs bad) n base = poolOf s n base := by
  simp only [poolOf, partOf_writeSpan]

@[simp] theorem poolOf_event (s : State) (cls severity code status utype uindex : Nat) (k : Option Nat) (cmd : Option (Nat × Nat)) (detail : List W64)
    (n base : Nat) : poolOf (event s cls severity code status utype uindex k cmd detail) n base = poolOf s n base := by
  simp only [poolOf, partOf_event]

-- the search for a block (R176)

theorem alignUp_mod (a order : Nat) : alignUp a order % 2 ^ order = 0 := Nat.mul_mod_left ..

theorem le_alignUp (a order : Nat) : a ≤ alignUp a order := by
  have hlt := Nat.lt_div_mul_add (a := a + 2 ^ order - 1) (Nat.two_pow_pos order)
  have hpos := Nat.two_pow_pos order
  unfold alignUp
  omega

/-- A block found from an aligned start is aligned, lies between the start and the end, and meets no block of the table: each step goes on from the
aligned end of a block that is in the way. -/
theorem findBlock_spec {blocks : Tab Nat} {hi order k lo a : Nat} (h : findBlock blocks hi order k lo = some a) (hlo : lo % 2 ^ order = 0) :
    a % 2 ^ order = 0 ∧ lo ≤ a ∧ a + 2 ^ order ≤ hi ∧ ∀ b ∈ blocks, a + 2 ^ order ≤ b.1 ∨ b.1 + 2 ^ b.2 ≤ a := by
  induction k generalizing lo with
  | zero => contradiction
  | succ k ih =>
    rw [findBlock] at h
    split at h
    · contradiction
    · split at h
      next hroom _ hfree =>
        cases h
        refine ⟨hlo, Nat.le_refl _, by omega, fun b hb => ?_⟩
        have hmeet := List.find?_eq_none.mp hfree b hb
        simp only [Bool.and_eq_true, decide_eq_true_eq] at hmeet
        omega
      next _ _ b hmeets =>
        have hmeet := List.find?_some hmeets
        simp only [Bool.and_eq_true, decide_eq_true_eq] at hmeet
        obtain ⟨halign, hstart, hfits, hfree⟩ := ih h (alignUp_mod ..)
        have hend := le_alignUp (b.1 + 2 ^ b.2) order
        exact ⟨halign, by omega, hfits, hfree⟩

theorem poolBlock_spec {p : Part} {r : Range} {order a : Nat} (h : poolBlock p r order = some a) :
    a % 2 ^ order = 0 ∧ r.base * 4096 + 4096 ≤ a ∧ a + 2 ^ order ≤ (r.base + r.len) * 4096 ∧
    ∀ b ∈ (tabGet {} p.pools r.base).blocks, a + 2 ^ order ≤ b.1 ∨ b.1 + 2 ^ b.2 ≤ a := by
  obtain ⟨halign, hstart, hfits, hfree⟩ := findBlock_spec h (alignUp_mod ..)
  exact ⟨halign, Nat.le_trans (le_alignUp ..) hstart, hfits, hfree⟩

theorem replyBytes_length (q : PortReq) : (replyBytes q).length = 64 := by
  simp [replyBytes, natBytes]

-- the commands

section
variable {s : State} {n task : Nat} {r : Range} (hr : poolRange (partOf s n) r.base = some r) (hm : r.modId = s.glb.moduleId)
include hr hm

theorem exec_allocPortGet {q : PortReq} (hq : (poolOf s n r.base).replies.find? (fun x => x.1 == task) = some (task, q)) :
    exec (.allocPortGet n r.base task) s = .next (answerReq
      (modPool s n r.base (fun y => { y with replies := y.replies.filter (fun z => z.1 != task) })) (unitCode (.cp 0)) task .ok (replyBytes q)) := by
  change execAllocPortGet n r.base task s = _
  rw [poolOf] at hq
  simp [execAllocPortGet, hr, hm, portGet, hq]

variable (hp : portBusy (partOf s n) r.base task = false)
include hp

theorem exec_alloc (order : Nat) (zero : Bool) : exec (.alloc n r.base task order zero) s = .next (poolAlloc s n r task order zero) := by
  change execAlloc n r.base task order zero s = _
  simp [execAlloc, hr, hm, hp]

theorem exec_free (addr : Nat) : exec (.free n r.base task addr) s = .next (poolFree s n r task addr) := by
  change execFree n r.base task addr s = _
  simp [execFree, hr, hm, hp]

end

theorem poolAlloc_block {s : State} {n : Nat} {r : Range} {order a : Nat} (task : Nat) (zero : Bool) (hlo : 12 ≤ order) (hhi : order ≤ 30)
    (ha : poolBlock (partOf s n) r order = some a) :
    poolOf (poolAlloc s n r task order zero) n r.base =
      { blocks := tabSet 0 (poolOf s n r.base).blocks a order, replies := (poolOf s n r.base).replies ++ [(task, ⟨0, order, a⟩)] } ∧
    (zero = false → (poolAlloc s n r task order zero).mem = s.mem) := by
  have hlo' : ¬ order < 12 := by omega
  have hhi' : ¬ order > 30 := by omega
  cases zero with
  | false => simp [poolAlloc, hlo', hhi', ha]; rfl
  | true => simp [poolAlloc, hlo', hhi', ha]

theorem poolOf_poolAlloc_badOrder (s : State) (n : Nat) (r : Range) (task : Nat) {order : Nat} (zero : Bool) (h : order < 12 ∨ 30 < order) :
    poolOf (poolAlloc s n r task order zero) n r.base =
      { poolOf s n r.base with replies := (poolOf s n r.base).replies ++ [(task, ⟨3, order, 0⟩)] } := by
  have hbad : (order < 12 || order > 30) = true := by simpa using h
  simp only [poolAlloc, hbad, if_true, poolOf_holdReply]

theorem poolOf_poolFree (s : State) (n : Nat) (r : Range) (task addr : Nat) :
    poolOf (poolFree s n r task addr) n r.base =
      if tabGet 0 (poolOf s n r.base).blocks addr = 0 then
        { poolOf s n r.base with replies := (poolOf s n r.base).replies ++ [(task, ⟨2, 0, 0⟩)] }
      else { blocks := tabSet 0 (poolOf s n r.base).blocks addr 0,
             replies := (poolOf s n r.base).replies ++ [(task, ⟨0, tabGet 0 (poolOf s n r.base).blocks addr, 0⟩)] } := by
  change poolOf (if tabGet 0 (poolOf s n r.base).blocks addr = 0 then _ else _) n r.base = _
  split
  · rw [poolOf_holdReply, poolOf_event]
  · rw [poolOf_holdReply, poolOf_modPool]
    rfl

/-- Settles O23: each command is one change of the pool, read back by the lemmas above; where a block lies follows from `findBlock_spec`. -/
theorem allocator : Obligations.Allocator := by
  intro s n task r hr hm pool
  refine ⟨fun hp => ⟨?alloc, ?badOrder, ?free, ?notAllocated⟩, ?get⟩
  case alloc =>
    intro order a zero hlo hhi ha
    obtain ⟨hpool, hmem⟩ := poolAlloc_block task zero hlo hhi ha
    have hblocks := congrArg (·.blocks) hpool
    obtain ⟨halign, hstart, hfits, hfree⟩ := poolBlock_spec ha
    refine ⟨_, exec_alloc hr hm hp order zero, ?_, fun b hb => ?_, congrArg (·.replies) hpool, hmem, halign, hstart, hfits, hfree⟩
    · exact (congrArg (tabGet 0 · a) hblocks).trans ((tabGet_tabSet ..).trans (if_pos rfl))
    · exact (congrArg (tabGet 0 · b) hblocks).trans ((tabGet_tabSet ..).trans (if_neg hb))
  case badOrder =>
    intro order zero h
    have hpool := poolOf_poolAlloc_badOrder s n r task zero h
    exact ⟨_, exec_alloc hr hm hp order zero, congrArg (·.replies) hpool, congrArg (·.blocks) hpool⟩
  case free =>
    rintro addr _ rfl hne
    have hpool := (poolOf_poolFree s n r task addr).trans (if_neg hne)
    have hblocks : (poolOf (poolFree s n r task addr) n r.base).blocks = tabSet 0 (poolOf s n r.base).blocks addr 0 := congrArg (·.blocks) hpool
    refine ⟨_, exec_free hr hm hp addr, ?_, fun b hb => ?_, congrArg (·.replies) hpool⟩
    · exact (congrArg (tabGet 0 · addr) hblocks).trans ((tabGet_tabSet ..).trans (if_pos rfl))
    · exact (congrArg (tabGet 0 · b) hblocks).trans ((tabGet_tabSet ..).trans (if_neg hb))
  case notAllocated =>
    intro addr h0
    have hpool := (poolOf_poolFree s n r task addr).trans (if_pos h0)
    exact ⟨_, exec_free hr hm hp addr, congrArg (·.blocks) hpool, congrArg (·.replies) hpool⟩
  case get =>
    intro q hq
    have hfind : (poolOf s n r.base).replies.find? (fun x => x.1 == task) = some (task, q) := by
      change (pool s).replies.find? _ = _
      simp [hq]
    refine ⟨_, exec_allocPortGet hr hm hfind, ?_, rfl, replyBytes_length q⟩
    change (poolOf (modPool s n r.base _) n r.base).replies = []
    rw [poolOf_modPool]
    change (pool s).replies.filter _ = []
    simp [hq]

end Sys2Proof.Proofs
end

section
/-! SUPPORT. Two states that the statements on host pages and on range commands do not leave out, and their refutations: a table of partitions whose keys do
not rise (R166–R168), and a line of the LLM cache with more bytes than a line has (R130, R132). -/

namespace Sys2Proof.Proofs

open Sys2Proof.Machine Sys2Proof.Laws

-- a failed page request while the table of partitions is out of order

/-- A PUT, saved with the task that issued it, that has not performed; `va` tells two of them apart. -/
def savedPut (va : Nat) : Xfer := { xid := 0, write := true, va := va, lbase := 0, len := 0, data := [] }

/-- A partition with one saved task, which has issued `savedPut va`. -/
def partSaving (va : Nat) : Part :=
  { saves := [{ version := 0, launch := 0, task := 0, cause := 0, extent := 0, oldCore := 0, core := { xfers := [savedPut va] } }] }

/-- The fault of function 1 for which transfer 0 of core 0 holds. -/
def heldFault : FaultEntry := { port := 0, fn := 1, pasid := 0, page := 0, holders := [(0, 0)], sent := true }

/-- Partition 1 stands before partition 0, and both have saved a transfer 0 of core 0. -/
def partsOutOfOrder : State := { parts := [(1, partSaving 1), (0, partSaving 0)], sur := { faultQ := [heldFault] } }

/-- The first entry of the table holds the transfer. -/
theorem xferOf_partsOutOfOrder : xferOf partsOutOfOrder 0 0 = some (savedPut 1) := by decide +kernel

/-- The response marks the pages of partition 0, and that write puts its entry before the one of partition 1: the transfer found is now another one. -/
theorem exec_pageResponse_partsOutOfOrder : ∃ u, exec (.pageRequestGroupResponse 1 0 0 false) partsOutOfOrder = .next u ∧
    xferOf u 0 0 = some { savedPut 0 with answer := some .fault } :=
  ⟨_, rfl, by decide +kernel⟩

/-- Refutes O22: the clause on a response that fails says which transfer is then found for its holder, but the statement leaves the order of the table of
partitions open. In `partsOutOfOrder` the response moves partition 0 to the front, whose transfer of the same core and number has another address. -/
theorem not_hostPages : ¬ Obligations.HostPages := by
  intro h
  obtain ⟨-, -, -, hresponse, -⟩ := h partsOutOfOrder 0 0 0 []
  obtain ⟨-, hfailure⟩ := hresponse heldFault rfl rfl rfl
  obtain ⟨t, hexec, -, hfound⟩ := hfailure 0 0 (savedPut 1) rfl (by decide) xferOf_partsOutOfOrder rfl
  obtain ⟨u, hexec', hfound'⟩ := exec_pageResponse_partsOutOfOrder
  cases hexec.symm.trans hexec'
  exact absurd (hfound.symm.trans hfound') (by decide)

-- a granule that changes its mode while the cache holds an overlong line

/-- What LLM_CONFIG does to memory when it changes a granule's mode: the partition's cache on the die is flushed, and the granule erased (R132). -/
theorem exec_llmConfig_mem {s : State} {f seq n : Nat} {c : Cmd} (hc : startedCmd s f 0 seq 0x0B = some c) (hn : targetPart s f c = some n)
    (hvalid : (granuleOf s (bits (cmdWord c 16) 8 0)).valid = true) (hpart : (granuleOf s (bits (cmdWord c 16) 8 0)).part = n)
    (hmode : (granuleOf s (bits (cmdWord c 16) 8 0)).cache ≠ bitOf (cmdWord c 16) 16) {t : State} (ht : exec (.llmConfig f seq) s = .next t) :
    t.mem = (clearSpan (flushCache s n (bits (cmdWord c 16) 8 0 / 128)) (granulePa (bits (cmdWord c 16) 8 0)) 0x100000).mem := by
  change execLlmConfig f seq s = _ at ht
  simp only [execLlmConfig, pfCommand, hc, hn, hvalid, hpart, hmode, Bool.not_true, ne_eq, not_true_eq_false, decide_false, Bool.or_self,
    Bool.false_eq_true, if_false] at ht
  cases ht
  rfl

/-- LLM_CONFIG of granule 0, which becomes cache. -/
def toCache : Cmd :=
  { seq := 0, pseq := 0, opc := 0x0B, ctx := 0, flags := 0, fwait := 0, fsig := 0, waitVal := 0, sigVal := 0, words := [0, 0, 0x10000#64], phase := .started }

/-- The cache holds line 0 clean, with 129 bytes for what its stack holds, and nothing else. -/
def overlongLine : State :=
  { cache := [(0, some { dirty := false, stack := List.replicate 129 1#8, stackMeta := 0 })], granules := [(0, { valid := true })],
    slices := [(64, { state := .assigned })], parts := [(0, { queues := [(0, { cmds := [toCache] })] })] }

/-- The eviction of line 0 writes the first byte of line 1. -/
theorem mem_flush_overlongLine : tabGet 0#8 (clearSpan (flushCache overlongLine 0 0) (granulePa 0) 0x100000).mem 128 = 1#8 := by decide +kernel

/-- Refutes O21: the clause on LLM_CONFIG says that memory outside the granule is kept but for lines of the cache, and the statement leaves the length of
what a line holds open. In `overlongLine` the flush writes a byte of line 1, which the cache does not hold. -/
theorem not_rangesAndMoves : ¬ Obligations.RangesAndMoves := by
  intro h
  obtain ⟨hcommands, -⟩ := h
  obtain ⟨-, -, hconfig⟩ := hcommands overlongLine 0 0 0 toCache rfl
  obtain ⟨-, howned⟩ := hconfig (by decide +kernel)
  obtain ⟨-, hchanged⟩ := howned rfl rfl
  obtain ⟨t, hexec, -, -, -, -, hkept⟩ := hchanged (by decide +kernel)
  have hmem := exec_llmConfig_mem (c := toCache) (by decide +kernel) rfl rfl rfl (by decide +kernel) hexec
  have hbyte : tabGet 0#8 t.mem 128 = 1#8 := (congrArg (tabGet 0#8 · 128) hmem).trans mem_flush_overlongLine
  rcases hkept 128 (by decide) with hsame | ⟨e, hheld, -⟩
  · exact absurd (hbyte.symm.trans hsame) (by decide)
  · cases hheld

end Sys2Proof.Proofs
end
